-- ==== Sys2Proof/Word.lean ====
section
/-! DEFINITION. The word types of CSFB-1 (00_scope.md R9: a byte is 8 bits, a register is 32 bits). -/

namespace Sys2Proof

/-- A byte on a wire, in a buffer or in a checksum register (R7, R9). -/
abbrev Byte := BitVec 8

/-- A host register value, and so a `CMD` word (R7, R9, R90). -/
abbrev Word := BitVec 32

end Sys2Proof
end

