-- ==== Sys2Proof/Syntax.lean ====
section
/-! DEFINITION. The commands of CSFB-1: one constructor per row of spec/opcode_table.json (30_encoding.md R92). -/

namespace Sys2Proof

/-- A command (R90 to R92). A byte operand `b` takes any value; a count operand `n` is legal from 1 to 255 (R91). -/
inductive Instr where
  /-- `NOP`, 44_control.md R270. -/
  | nop
  /-- `SRST`, 44_control.md R271. -/
  | srst
  /-- `CLR_ERR`, 44_control.md R272. -/
  | clrErr
  /-- `CK_INIT`, 40_checksum.md R127. -/
  | ckInit
  /-- `CK_FEED b`, 40_checksum.md R128. -/
  | ckFeed (b : Byte)
  /-- `CK_FEED_TX`, 40_checksum.md R129. -/
  | ckFeedTx
  /-- `CK_FEED_RX`, 40_checksum.md R130. -/
  | ckFeedRx
  /-- `TX_CLR`, 41_framer.md R151. -/
  | txClr
  /-- `TX_PUSH b`, 41_framer.md R152. -/
  | txPush (b : Byte)
  /-- `TX_RAW`, 41_framer.md R153. -/
  | txRaw
  /-- `TX_RAW_B`, 41_framer.md R154. -/
  | txRawB
  /-- `TX_RAW_D`, 41_framer.md R155. -/
  | txRawD
  /-- `TX_RAW_C n`, 41_framer.md R156. -/
  | txRawC (n : Byte)
  /-- `TX_BOSCH`, 41_framer.md R157. -/
  | txBosch
  /-- `TX_DENSO`, 41_framer.md R158. -/
  | txDenso
  /-- `TX_ISOTP_SF`, 41_framer.md R159. -/
  | txIsotpSf
  /-- `RX_ARM_B`, 42_parser.md R184. -/
  | rxArmB
  /-- `RX_ARM_D`, 42_parser.md R185. -/
  | rxArmD
  /-- `RX_ARM_I`, 43_isotp.md R231. -/
  | rxArmI
  /-- `RX_CAP n`, 42_parser.md R186. -/
  | rxCap (n : Byte)
  /-- `RX_CANCEL`, 42_parser.md R187. -/
  | rxCancel
deriving DecidableEq, Repr

end Sys2Proof
end

