-- ==== Sys2Proof/WellFormed.lean ====
section
/-! DEFINITION. Which commands have an encoding: the operand ranges of 30_encoding.md R91. -/

namespace Sys2Proof

/-- A count operand is legal from 1 to 255 (R91, R93 case 4). -/
def countLegal (n : Byte) : Bool := n != 0#8

/-- The operand check of R91: a byte operand takes any value, a count is not 0. -/
def wellFormed : Instr → Bool
  | .nop => true
  | .srst => true
  | .clrErr => true
  | .ckInit => true
  | .ckFeed _ => true
  | .ckFeedTx => true
  | .ckFeedRx => true
  | .txClr => true
  | .txPush _ => true
  | .txRaw => true
  | .txRawB => true
  | .txRawD => true
  | .txRawC n => countLegal n
  | .txBosch => true
  | .txDenso => true
  | .txIsotpSf => true
  | .rxArmB => true
  | .rxArmD => true
  | .rxArmI => true
  | .rxCap n => countLegal n
  | .rxCancel => true

end Sys2Proof
end

