-- ==== Sys2Proof/Decode.lean ====
section
/-! DEFINITION. The command decoder of 30_encoding.md R94, total on 32-bit words, and the encoder of R92. -/

namespace Sys2Proof

/-- Why a word is illegal: the four cases of R93, in its order (entry 12). -/
inductive IllegalWord where
  /-- R93 case 1: `Z != 0`. -/
  | zField
  /-- R93 case 2: `OP` is not in the table. -/
  | opcode
  /-- R93 case 3: `IMM != 0` where 0 is required. -/
  | operand
  /-- R93 case 4: a zero count for `TX_RAW_C` or `RX_CAP`. -/
  | zeroCount
deriving DecidableEq, Repr

/-- What a word stands for (R94: `Command | Illegal`). -/
inductive Decoded where
  | command (i : Instr)
  | illegal (why : IllegalWord)
deriving DecidableEq, Repr

/-- Field `Z`, bits [31:16] (R90). -/
def zField (v : Word) : BitVec 16 := v.extractLsb' 16 16

/-- Field `OP`, bits [15:8] (R90). -/
def opField (v : Word) : Byte := v.extractLsb' 8 8

/-- Field `IMM`, bits [7:0] (R90). -/
def immField (v : Word) : Byte := v.extractLsb' 0 8

/-- A command that takes no operand: `IMM` must be 0 (R93 case 3). -/
def plainCommand (imm : Byte) (i : Instr) : Decoded :=
  if imm = 0#8 then .command i else .illegal .operand

/-- A command with a count operand: `IMM` must not be 0 (R93 case 4). -/
def countCommand (imm : Byte) (i : Instr) : Decoded :=
  if countLegal imm then .command i else .illegal .zeroCount

/-- The opcode map of R92, for a word whose `Z` is 0. -/
def decodeOp (op imm : Byte) : Decoded :=
  match op.toNat with
  | 0x00 => plainCommand imm .nop
  | 0x01 => plainCommand imm .srst
  | 0x02 => plainCommand imm .clrErr
  | 0x10 => plainCommand imm .ckInit
  | 0x11 => .command (.ckFeed imm)
  | 0x12 => plainCommand imm .ckFeedTx
  | 0x13 => plainCommand imm .ckFeedRx
  | 0x20 => plainCommand imm .txClr
  | 0x21 => .command (.txPush imm)
  | 0x22 => plainCommand imm .txRaw
  | 0x23 => plainCommand imm .txRawB
  | 0x24 => plainCommand imm .txRawD
  | 0x25 => countCommand imm (.txRawC imm)
  | 0x28 => plainCommand imm .txBosch
  | 0x29 => plainCommand imm .txDenso
  | 0x2A => plainCommand imm .txIsotpSf
  | 0x30 => plainCommand imm .rxArmB
  | 0x31 => plainCommand imm .rxArmD
  | 0x32 => plainCommand imm .rxArmI
  | 0x33 => countCommand imm (.rxCap imm)
  | 0x3F => plainCommand imm .rxCancel
  | _ => .illegal .opcode

/-- `decode` of R94: total on every 32-bit value, and independent of the state. -/
def decode (v : Word) : Decoded :=
  if zField v = 0#16 then decodeOp (opField v) (immField v) else .illegal .zField

/-- The word with `Z = 0` and the given `OP` and `IMM` (R90). -/
def commandWord (op imm : Byte) : Word := 0#16 ++ op ++ imm

/-- The `CMD` word of a command (R92, opcode_table.json). -/
def encode : Instr → Word
  | .nop => commandWord 0x00#8 0#8
  | .srst => commandWord 0x01#8 0#8
  | .clrErr => commandWord 0x02#8 0#8
  | .ckInit => commandWord 0x10#8 0#8
  | .ckFeed b => commandWord 0x11#8 b
  | .ckFeedTx => commandWord 0x12#8 0#8
  | .ckFeedRx => commandWord 0x13#8 0#8
  | .txClr => commandWord 0x20#8 0#8
  | .txPush b => commandWord 0x21#8 b
  | .txRaw => commandWord 0x22#8 0#8
  | .txRawB => commandWord 0x23#8 0#8
  | .txRawD => commandWord 0x24#8 0#8
  | .txRawC n => commandWord 0x25#8 n
  | .txBosch => commandWord 0x28#8 0#8
  | .txDenso => commandWord 0x29#8 0#8
  | .txIsotpSf => commandWord 0x2A#8 0#8
  | .rxArmB => commandWord 0x30#8 0#8
  | .rxArmD => commandWord 0x31#8 0#8
  | .rxArmI => commandWord 0x32#8 0#8
  | .rxCap n => commandWord 0x33#8 n
  | .rxCancel => commandWord 0x3F#8 0#8

/-- The command of a decoded word, if it is legal. -/
def Decoded.command? : Decoded → Option Instr
  | .command i => some i
  | .illegal _ => none

/-- The `CMD` word a table word of `nbits` bits stands for: the bits above `nbits` are 0 (R95: every command is 32 bits). -/
def tableWord (nbits w : Nat) : Word := BitVec.ofNat 32 (w % 2 ^ nbits)

/-- The command the decoder reads from a word numbered as spec/opcode_table.json numbers it. A command word is one
register value, so there is no byte layout to choose (R68, R90). -/
def decodeTableWord (nbits w : Nat) : Option Instr :=
  if nbits ≤ 32 then (decode (tableWord nbits w)).command? else none

end Sys2Proof
end

