-- ==== Sys2Proof/Config.lean ====
section
/-! DEFINITION. The implementation parameters of CSFB-1: the fixed values of 00_scope.md R7, and the
values R8 and R71 leave to the platform or the host, as constants nothing can evaluate. -/

namespace Sys2Proof

/-- The ECU families of CS-v1 (R13): the argument of the per-family host parameters. -/
inductive EcuFamily where
  | bosch
  | siemens
  | denso
deriving DecidableEq, Repr, Inhabited

/-- The four checksums of the CK unit (R1, R120 to R123): what `VERIFY_CK` chooses among. -/
inductive ChecksumKind where
  | sum8
  | twoc8
  | xor8
  | crc8
deriving DecidableEq, Repr, Inhabited

namespace Config

/-- `STX` (R7, R97). -/
def stx : Byte := 0x02#8

/-- `ETX` (R7, R97). -/
def etx : Byte := 0x03#8

/-- `TXBUF_SIZE` (R7). -/
def txBufSize : Nat := 255

/-- `RXBUF_SIZE` (R7). -/
def rxBufSize : Nat := 4095

/-- ISO-TP single-frame capacity (R7, R98). -/
def sfCapacity : Nat := 7

/-- ISO-TP first-frame data bytes (R7, R99). -/
def ffDataBytes : Nat := 6

/-- ISO-TP consecutive-frame data bytes, at most (R7, R100). -/
def cfDataBytes : Nat := 7

/-- The least total length a first frame may declare (R7, R235). -/
def minFirstFrameLen : Nat := 8

/-- The transmit padding byte (R7, R103). -/
def padByte : Byte := 0x00#8

/-- The data bytes of the flow-control frame (R7, R101). -/
def flowControlBytes : List Byte := [0x30#8, 0#8, 0#8, 0#8, 0#8, 0#8, 0#8, 0#8]

/-- What a buffer byte that nothing has written reads as.
DESIGN CHOICE (entry 5): 10_state.md R53 leaves it unspecified and 93 allows zero; unsafe. -/
def unwrittenByte : Byte := 0x00#8

/-- `CSFB_BASE`, the platform address of the block's 256-byte window (R71; D4 OPEN; entry 13). -/
opaque csfbBase : Nat

/-- `TIMEOUT`, after which the environment asserts the timeout input (R8; D16 OPEN; entry 13).
The model has no time, so nothing reads it: a `timer` event may stand anywhere in the inputs. -/
opaque timeout : Nat

/-- `RETRY_COUNT`, which lives in host software (R8; D20 OPEN; entry 13). The block never reads it. -/
opaque retryCount : Nat

/-- `WAKE_SEQ(f)`, host data sent with the `TX_RAW*` commands (R8; D31 OPEN; entry 13). -/
opaque wakeSeq : EcuFamily → List Byte

/-- `VERIFY_CK(f)`, the host's choice of write-verify checksum (D43 OPEN; entry 13). -/
opaque verifyCk : EcuFamily → ChecksumKind

end Config

end Sys2Proof
end

