-- ==== Sys2Proof/Machine/State.lean ====
section
/-! DEFINITION. The state of CSFB-1: every field of 10_state.md R22, grouped by R22's unit column, the
transmit histories of R38, and the model's own list of inputs to come; the reasons a step can stop; reset. -/

namespace Sys2Proof.Machine

/-- Receive status codes (R31). Codes 10 to 15 are never produced, so they are left out (entry 9). -/
inductive RxSt where
  | idle
  | busy
  | ok
  | empty
  | timeout
  | short
  | chkErr
  | frameErr
  | seqErr
  | cancelled
deriving DecidableEq, Repr

/-- The family of the current or last receive (R32). Codes 5 to 7 are never produced (entry 9). -/
inductive RxFam where
  | none
  | bosch
  | denso
  | isotp
  | raw
deriving DecidableEq, Repr

/-- The receive sequencer's phase (R33). Codes 12 to 15 are never produced (entry 9). -/
inductive RxPhase where
  | none
  | bLen
  | bBody
  | bChk
  | dHunt
  | dLen
  | dBody
  | dChk
  | dEtx
  | iFirst
  | iCf
  | rCap
deriving DecidableEq, Repr

/-- The bytes of one buffer: (index, byte) pairs, indices rising, none equal to what an unlisted index reads as. -/
abbrev Memory := List Host.Cell

/-- The checksum accumulators (R22, R23). -/
structure CkAcc where
  ckSum : Byte
  ckXor : Byte
  ckCrc : Byte
deriving DecidableEq, Repr

/-- The CRC-8 configuration (R22, R24, R43). -/
structure CrcCfg where
  crcPoly : Byte
  crcInit : Byte
  crcXorout : Byte
  crcRefin : Bool
  crcRefout : Bool
deriving DecidableEq, Repr

/-- The CAN arbitration identifiers (R22, R36, R44). -/
structure CanIds where
  reqId : BitVec 11
  respId : BitVec 11
deriving DecidableEq, Repr

/-- The transmit buffer and its length (R22, R25). -/
structure TxUnit where
  txBuf : Memory
  txLen : BitVec 8
deriving DecidableEq, Repr

/-- The receiver (R22, R26 to R34). -/
@[ext]
structure RxUnit where
  rxSt : RxSt
  rxFam : RxFam
  rxPhase : RxPhase
  rxBuf : Memory
  rxExp : BitVec 12
  rxIdx : BitVec 12
  rxSum : Byte
  rxSn : BitVec 4
  rxCommit : BitVec 12
  chkRx : Byte
  chkCalc : Byte
  chkSeen : Bool
  chkMatch : Bool
deriving DecidableEq, Repr

/-- The sticky error flags (R22, R37). -/
structure ErrFlags where
  errIll : Bool
  errHdx : Bool
  errTxlen : Bool
  errStray : Bool
deriving DecidableEq, Repr

/-- A classic CAN frame `(id, dlc, d0..d7)` (20_memory.md R62): an 11-bit identifier and a `dlc` from 0 to 8 (entry 15). -/
structure CanFrame where
  id : BitVec 11
  dlc : Fin 9
  d0 : Byte
  d1 : Byte
  d2 : Byte
  d3 : Byte
  d4 : Byte
  d5 : Byte
  d6 : Byte
  d7 : Byte
deriving DecidableEq, Repr

/-- One step of one agent (00_scope.md R6). A host access has an 8-bit offset and a width in bits (R60, R66; entry 14). -/
inductive Event where
  /-- `Host`: `RegRead(off)` of the given width (R60). -/
  | hostRead (off : BitVec 8) (bits : Nat)
  /-- `Host`: `RegWrite(off, v)` of the given width (R60). -/
  | hostWrite (off : BitVec 8) (bits : Nat) (v : Word)
  /-- `SerialRx`: one serial byte (R61, R188). -/
  | serialRx (b : Byte)
  /-- `CanRx`: one CAN frame (R62, R232). -/
  | canRx (f : CanFrame)
  /-- `Timer`: one assertion of the timeout input (R64, R207). -/
  | timer
  /-- `Reset`: one assertion of the reset input (R64, R320). -/
  | reset
deriving DecidableEq, Repr

/-- The whole machine. `ck` to `err` are the block's state (R22); `serialOut` and `canOut` are its transmit
histories (R38; entry 3); `hostReads` and `inputs` are the model's own (entries 1 and 4). -/
@[ext]
structure State where
  ck : CkAcc
  crc : CrcCfg
  can : CanIds
  tx : TxUnit
  rx : RxUnit
  /-- Index for `RX_DATA`, written by the host only (R35). -/
  rxPtr : BitVec 12
  err : ErrFlags
  /-- Bytes sent on the serial port, oldest first (R38). -/
  serialOut : List Byte
  /-- Frames sent on the CAN port, oldest first (R38). -/
  canOut : List CanFrame
  /-- Values the host's reads have returned, oldest first (R60). -/
  hostReads : List Word
  /-- The agents' steps still to come, in their total order (R73). -/
  inputs : List Event
deriving DecidableEq, Repr

/-- Why a step stops. -/
inductive Fault where
  /-- Raised by a host read or write at an unmapped or misaligned offset or of a width other than 32 bits
  (20_memory.md R66, 60_exceptions.md R297). The block's state is unchanged. Safe (entry 6). -/
  | busError
  /-- Raised by a receive store at index 4095, outside `RXBUF` (20_memory.md R65), from states that break the
  invariant only. Safe (entry 7). -/
  | rxBufOverflow
  /-- Raised by an input to an armed receiver whose family and phase no rule covers (42_parser.md R188, 43_isotp.md
  R232), from states that break the invariant only. Safe (entry 8). -/
  | noReceiveRule
deriving DecidableEq, Repr

/-- Why a step is refused. -/
inductive Refusal where
  /-- Raised by an arm of `exec` whose command has no meaning yet; no arm is left so. Safe. -/
  | notModelled (mnemonic : String)
deriving DecidableEq, Repr

/-- The three outcomes of a step of this machine. -/
abbrev Result := Host.Outcome State Fault Refusal

/-- R53: `ckSum`, `ckXor` and `ckCrc` after reset. -/
def ckReset : CkAcc := { ckSum := 0#8, ckXor := 0#8, ckCrc := 0#8 }

/-- R53: the CRC configuration after reset (POLY 0x07). -/
def crcReset : CrcCfg :=
  { crcPoly := 0x07#8, crcInit := 0#8, crcXorout := 0#8, crcRefin := false, crcRefout := false }

/-- R53: the identifiers after reset. -/
def canReset : CanIds := { reqId := 0x7E0#11, respId := 0x7E8#11 }

/-- R53: the transmitter after reset. The buffer's bytes are unspecified; none is listed (entry 5). -/
def txReset : TxUnit := { txBuf := [], txLen := 0#8 }

/-- R53: the receiver after reset. The buffer's bytes are unspecified; none is listed (entry 5). -/
def rxReset : RxUnit :=
  { rxSt := .idle, rxFam := .none, rxPhase := .none, rxBuf := [], rxExp := 0#12, rxIdx := 0#12, rxSum := 0#8,
    rxSn := 0#4, rxCommit := 0#12, chkRx := 0#8, chkCalc := 0#8, chkSeen := false, chkMatch := false }

/-- R53: no sticky flag is set after reset. -/
def errReset : ErrFlags := { errIll := false, errHdx := false, errTxlen := false, errStray := false }

/-- The machine right after reset (R53): nothing sent or read yet, and no input to come (entry 17). -/
def State.reset : State :=
  { ck := ckReset, crc := crcReset, can := canReset, tx := txReset, rx := rxReset, rxPtr := 0#12,
    err := errReset, serialOut := [], canOut := [], hostReads := [], inputs := [] }

end Sys2Proof.Machine
end

