-- ==== Sys2Proof/Machine/Flags.lean ====
section
/-! DEFINITION. The status codes of 10_state.md R31 to R33 and the sticky error flags of R37. The block has no
condition codes (R39). -/

namespace Sys2Proof.Machine

/-- R31: the 4-bit code of a receive status. -/
def rxStCode : RxSt → BitVec 4
  | .idle => 0#4
  | .busy => 1#4
  | .ok => 2#4
  | .empty => 3#4
  | .timeout => 4#4
  | .short => 5#4
  | .chkErr => 6#4
  | .frameErr => 7#4
  | .seqErr => 8#4
  | .cancelled => 9#4

/-- R32: the 3-bit code of a family. -/
def rxFamCode : RxFam → BitVec 3
  | .none => 0#3
  | .bosch => 1#3
  | .denso => 2#3
  | .isotp => 3#3
  | .raw => 4#3

/-- R33: the 4-bit code of a phase. -/
def rxPhaseCode : RxPhase → BitVec 4
  | .none => 0#4
  | .bLen => 1#4
  | .bBody => 2#4
  | .bChk => 3#4
  | .dHunt => 4#4
  | .dLen => 5#4
  | .dBody => 6#4
  | .dChk => 7#4
  | .dEtx => 8#4
  | .iFirst => 9#4
  | .iCf => 10#4
  | .rCap => 11#4

/-- `s.errIll <- 1` (R273, R292). -/
def setIll (e : ErrFlags) : ErrFlags := { e with errIll := true }

/-- `s.errHdx <- 1` (R294). -/
def setHdx (e : ErrFlags) : ErrFlags := { e with errHdx := true }

/-- `s.errTxlen <- 1` (R295). -/
def setTxlen (e : ErrFlags) : ErrFlags := { e with errTxlen := true }

/-- `s.errStray <- 1` (R206, R233, R296). -/
def setStray (e : ErrFlags) : ErrFlags := { e with errStray := true }

/-- All four flags cleared (R272). -/
def clearedFlags : ErrFlags := { errIll := false, errHdx := false, errTxlen := false, errStray := false }

end Sys2Proof.Machine
end

