-- ==== Sys2Proof/Machine/Ops.lean ====
section
/-! DEFINITION. The named operations over the state: the buffers, the field updates, and the primitives of
00_scope.md R11 (`SerialOut`, `CanOut`, `Arm`, `Complete`, `Reject`). The block takes no exception (60_exceptions.md
R290, R300), so `Reject` stands where an exception entry would. -/

namespace Sys2Proof.Machine

/-! ## Buffers (20_memory.md R65) -/

/-- Byte `a` of a buffer; an unlisted index reads as `Config.unwrittenByte` (entry 5). -/
def Memory.read : Memory → Nat → Byte
  | [], _ => Config.unwrittenByte
  | (k, v) :: m, a => if k = a then v else Memory.read m a

/-- Stores byte `v` at index `a`, keeping the canonical form. -/
def Memory.write : Memory → Nat → Byte → Memory
  | [], a, v => if v = Config.unwrittenByte then [] else [(a, v)]
  | (k, w) :: m, a, v =>
    if a < k then (if v = Config.unwrittenByte then (k, w) :: m else (a, v) :: (k, w) :: m)
    else if a = k then (if v = Config.unwrittenByte then m else (a, v) :: m)
    else (k, w) :: Memory.write m a v

/-- Stores the bytes `bs` at indices `a`, `a + 1`, ... in order. -/
def Memory.writeList : Memory → Nat → List Byte → Memory
  | m, _, [] => m
  | m, a, b :: bs => Memory.writeList (Memory.write m a b) (a + 1) bs

/-- The first `n` bytes of a buffer, in index order. -/
def Memory.firstBytes (m : Memory) (n : Nat) : List Byte := (List.range n).map (Memory.read m)

/-- Every listed index is at least `lo`, indices rise strictly, and no listed byte is the unwritten one. -/
def Memory.wfFrom : Nat → Memory → Bool
  | _, [] => true
  | lo, (k, v) :: m => decide (lo ≤ k) && decide (v ≠ Config.unwrittenByte) && Memory.wfFrom (k + 1) m

/-- The canonical form of a buffer of `size` bytes: rising indices, none at or above `size`, no unwritten byte listed. -/
def Memory.wf (size : Nat) (m : Memory) : Bool :=
  Memory.wfFrom 0 m && m.all (fun c => decide (c.1 < size))

/-! ## Field updates -/

/-- `s` with new checksum accumulators. -/
def State.setCk (s : State) (x : CkAcc) : State := { s with ck := x }

/-- `s` with a new CRC configuration. -/
def State.setCrc (s : State) (x : CrcCfg) : State := { s with crc := x }

/-- `s` with new CAN identifiers. -/
def State.setCan (s : State) (x : CanIds) : State := { s with can := x }

/-- `s` with a new transmit unit. -/
def State.setTx (s : State) (x : TxUnit) : State := { s with tx := x }

/-- `s` with a new receiver. -/
def State.setRx (s : State) (x : RxUnit) : State := { s with rx := x }

/-- `s` with a new `RX_DATA` index. -/
def State.setRxPtr (s : State) (x : BitVec 12) : State := { s with rxPtr := x }

/-- `s` with new sticky flags. -/
def State.setErr (s : State) (x : ErrFlags) : State := { s with err := x }

/-- `s` with other inputs to come. -/
def State.setInputs (s : State) (x : List Event) : State := { s with inputs := x }

/-- `SerialOut(b0 ... bn)` (R11, R38, R61): appends the bytes to the serial history. -/
def State.emitSerial (s : State) (bs : List Byte) : State := { s with serialOut := s.serialOut ++ bs }

/-- `CanOut(id, dlc, d0 ... d7)` (R11, R38, R62): appends one frame to the CAN history. -/
def State.emitCan (s : State) (f : CanFrame) : State := { s with canOut := s.canOut ++ [f] }

/-- Records the value a host read returned (R60; entry 4). -/
def State.emitRead (s : State) (v : Word) : State := { s with hostReads := s.hostReads ++ [v] }

/-- Every field of R22 takes its reset value of R53; the histories keep everything (R38, R271, R320). -/
def State.resetBlock (s : State) : State :=
  { s with ck := ckReset, crc := crcReset, can := canReset, tx := txReset, rx := rxReset, rxPtr := 0#12,
           err := errReset }

/-! ## The payloads -/

/-- `txBuf[0 .. txLen-1]`: the payload of the next frame to transmit (R25). -/
def State.txPayload (s : State) : List Byte := Memory.firstBytes s.tx.txBuf s.tx.txLen.toNat

/-- `rxBuf[0 .. rxCommit-1]`: the committed receive payload (R26, R30). -/
def State.rxPayload (s : State) : List Byte := Memory.firstBytes s.rx.rxBuf s.rx.rxCommit.toNat

/-! ## Receive primitives (42_parser.md R182, R183) -/

/-- `Arm(fam, phase, exp)` of R182. `rxBuf` is not changed. -/
def rxArm (fam : RxFam) (phase : RxPhase) (exp : BitVec 12) (r : RxUnit) : RxUnit :=
  { r with rxSt := .busy, rxFam := fam, rxPhase := phase, rxExp := exp, rxIdx := 0#12, rxSum := 0#8, rxSn := 0#4,
           rxCommit := 0#12, chkRx := 0#8, chkCalc := 0#8, chkSeen := false, chkMatch := false }

/-- `Complete(code)` of R183: only `OK` makes a payload readable (R30). -/
def rxComplete (code : RxSt) (r : RxUnit) : RxUnit :=
  { r with rxSt := code, rxPhase := .none, rxCommit := if code = .ok then r.rxExp else 0#12 }

/-- `Arm` as an update of the state. -/
def State.arm (s : State) (fam : RxFam) (phase : RxPhase) (exp : BitVec 12) : State :=
  s.setRx (rxArm fam phase exp s.rx)

/-- `Complete` as an update of the state. -/
def State.complete (s : State) (code : RxSt) : State := s.setRx (rxComplete code s.rx)

/-- Input that arrives while not armed for it sets `errStray` and is dropped (R206, R233, R296). -/
def State.stray (s : State) : State := s.setErr (setStray s.err)

/-! ## Command refusal (60_exceptions.md R290 to R295) -/

/-- An illegal command word sets `errIll` and has no other effect (R273). -/
def State.illegal (s : State) : State := s.setErr (setIll s.err)

/-- `Reject(errHdx)` (R293, R294). -/
def State.rejectHdx (s : State) : State := s.setErr (setHdx s.err)

/-- `Reject(errTxlen)` (R293, R295). -/
def State.rejectTxlen (s : State) : State := s.setErr (setTxlen s.err)

/-- The checks every transmit command makes, in order (41_framer.md R150 steps 2 and 3): half-duplex, then a length
from `lo` to `hi`; `sent` is the state after steps 4 and 5. -/
def transmit (lo hi : Nat) (sent : State) (s : State) : Result :=
  if s.rx.rxSt = .busy then .next s.rejectHdx
  else if s.tx.txLen.toNat < lo ∨ hi < s.tx.txLen.toNat then .next s.rejectTxlen
  else .next sent

/-- The check every arming command makes (42_parser.md R181 step 2), and `Arm`. -/
def armCommand (fam : RxFam) (phase : RxPhase) (exp : BitVec 12) (s : State) : Result :=
  if s.rx.rxSt = .busy then .next s.rejectHdx else .next (s.arm fam phase exp)

/-- A command with a count operand: a count of 0 makes the word illegal (30_encoding.md R93 case 4; entry 11). -/
def withCount (n : Byte) (s : State) (legal : Result) : Result :=
  if n = 0#8 then .next s.illegal else legal

end Sys2Proof.Machine
end

