-- ==== Sys2Proof/Machine/Checks.lean ====
section
/-! DEFINITION. The checksum functions of 40_checksum.md R120 to R126: over a byte sequence, as the spec defines
them, and one byte at a time, as the accumulators compute them. -/

namespace Sys2Proof.Machine

/-- `Sum8(seq)` (R120): the sum of the bytes, modulo 256. -/
def sum8 (bs : List Byte) : Byte := BitVec.ofNat 8 (bs.map BitVec.toNat).sum

/-- `Twoc8(seq)` (R120): `(256 - Sum8(seq)) mod 256`. -/
def twoc8 (bs : List Byte) : Byte := BitVec.ofNat 8 (256 - (sum8 bs).toNat)

/-- `(256 - x) mod 256` for an 8-bit `x` (R10, R42, R195). -/
def negByte (x : Byte) : Byte := BitVec.ofNat 8 (256 - x.toNat)

/-- `Xor8(seq)` (R122): the exclusive OR of all bytes, starting from 0. -/
def xor8 : List Byte → Byte
  | [] => 0#8
  | b :: bs => b ^^^ xor8 bs

/-- `reflect8(x)` (R121): bit `i` of the result is bit `7 - i` of `x`. -/
def reflect8 (x : Byte) : Byte :=
  BitVec.ofBool (x.getLsbD 0) ++ BitVec.ofBool (x.getLsbD 1) ++ BitVec.ofBool (x.getLsbD 2) ++
    BitVec.ofBool (x.getLsbD 3) ++ BitVec.ofBool (x.getLsbD 4) ++ BitVec.ofBool (x.getLsbD 5) ++
    BitVec.ofBool (x.getLsbD 6) ++ BitVec.ofBool (x.getLsbD 7)

/-- One shift of `CrcStep` (R123), most significant bit first. -/
def crcShift (poly c : Byte) : Byte :=
  if c.getLsbD 7 then (c <<< 1) ^^^ poly else c <<< 1

/-- `n` shifts of `CrcStep` (R123). -/
def crcShifts (poly : Byte) : Nat → Byte → Byte
  | 0, c => c
  | n + 1, c => crcShifts poly n (crcShift poly c)

/-- An input byte as the CRC register takes it (R123, `crcRefin`). -/
def crcIn (cfg : CrcCfg) (b : Byte) : Byte := if cfg.crcRefin then reflect8 b else b

/-- `CrcStep(c, b)` (R123). -/
def crcStep (cfg : CrcCfg) (c b : Byte) : Byte := crcShifts cfg.crcPoly 8 (c ^^^ crcIn cfg b)

/-- `Out(c)` (R42, R123). -/
def crcOut (cfg : CrcCfg) (c : Byte) : Byte :=
  (if cfg.crcRefout then reflect8 c else c) ^^^ cfg.crcXorout

/-- `Crc8(seq)` (R123). -/
def crc8 (cfg : CrcCfg) (bs : List Byte) : Byte := crcOut cfg (bs.foldl (crcStep cfg) cfg.crcInit)

/-- `BoschChk(P)` (R124): `(Sum8(P) + LEN) & 0xFF`. -/
def boschChk (p : List Byte) : Byte := sum8 p + BitVec.ofNat 8 p.length

/-- `DensoChk(P)` (R125). -/
def densoChk (p : List Byte) : Byte := twoc8 p

/-- `Feed(b)` (R126): the three accumulators advance together. -/
def feed (cfg : CrcCfg) (a : CkAcc) (b : Byte) : CkAcc :=
  { ckSum := a.ckSum + b, ckXor := a.ckXor ^^^ b, ckCrc := crcStep cfg a.ckCrc b }

/-- `Feed` of each byte of a sequence, in order (R126). -/
def feedAll (cfg : CrcCfg) (a : CkAcc) (bs : List Byte) : CkAcc := bs.foldl (feed cfg) a

/-- The accumulators as `CK_INIT` leaves them (R127). -/
def ckStart (cfg : CrcCfg) : CkAcc := { ckSum := 0#8, ckXor := 0#8, ckCrc := cfg.crcInit }

end Sys2Proof.Machine
end

