-- ==== Sys2Proof/Machine/Frames.lean ====
section
/-! DEFINITION. The wire formats of 30_encoding.md R96 to R103: what the transmit commands send (41_framer.md R160),
the parsers as functions of 42_parser.md R209, and the frame sequence of an ISO-TP message. -/

namespace Sys2Proof.Machine

/-- A CAN frame from its data bytes; bytes beyond them are the padding byte 0x00 (R103). -/
def canFrameOf (id : BitVec 11) (dlc : Fin 9) (bs : List Byte) : CanFrame :=
  { id := id, dlc := dlc,
    d0 := bs.getD 0 Config.padByte, d1 := bs.getD 1 Config.padByte, d2 := bs.getD 2 Config.padByte,
    d3 := bs.getD 3 Config.padByte, d4 := bs.getD 4 Config.padByte, d5 := bs.getD 5 Config.padByte,
    d6 := bs.getD 6 Config.padByte, d7 := bs.getD 7 Config.padByte }

/-- The eight data bytes `d0..d7` of a frame, in order (R62). -/
def CanFrame.bytes (f : CanFrame) : List Byte := [f.d0, f.d1, f.d2, f.d3, f.d4, f.d5, f.d6, f.d7]

/-- The data bytes `d[k] .. d[k+n-1]` of a frame. -/
def CanFrame.slice (f : CanFrame) (k n : Nat) : List Byte := (f.bytes.drop k).take n

/-- `pci = d0[7:4]` (R102). -/
def CanFrame.pci (f : CanFrame) : BitVec 4 := f.d0.extractLsb' 4 4

/-- `lo = d0[3:0]` (R98 to R100). -/
def CanFrame.lo (f : CanFrame) : BitVec 4 := f.d0.extractLsb' 0 4

/-- `TL = {lo, d1}`, big-endian (R67, R99, R235). -/
def CanFrame.totalLength (f : CanFrame) : BitVec 12 := f.lo ++ f.d1

/-- `EncBosch(P)` (R96, R160). -/
def encBosch (p : List Byte) : List Byte := BitVec.ofNat 8 p.length :: (p ++ [boschChk p])

/-- `EncDenso(P)` (R97, R160). -/
def encDenso (p : List Byte) : List Byte :=
  Config.stx :: BitVec.ofNat 8 p.length :: (p ++ [densoChk p, Config.etx])

/-- `EncSF(P)` (R98, R103, R160): one frame on identifier `id`, padded with 0x00. -/
def encSF (id : BitVec 11) (p : List Byte) : CanFrame := canFrameOf id 8 (BitVec.ofNat 8 p.length :: p)

/-- The flow-control frame the block sends (R101, R103, R236). -/
def flowControl (id : BitVec 11) : CanFrame := canFrameOf id 8 Config.flowControlBytes

/-- What a receive followed by one timeout leaves: the status and the payload (R209). -/
structure Decoding where
  status : RxSt
  payload : List Byte
deriving DecidableEq, Repr

/-- A status other than `OK` leaves no payload (R30). -/
def failed (st : RxSt) : Decoding := { status := st, payload := [] }

/-- `DecBosch(xs)` (R209). -/
def decBosch : List Byte → Decoding
  | [] => failed .timeout
  | len :: rest =>
    if len = 0#8 then failed .empty
    else if rest.length < len.toNat + 1 then failed .short
    else if rest.getD len.toNat 0#8 = sum8 (rest.take len.toNat) + len then
      { status := .ok, payload := rest.take len.toNat }
    else failed .chkErr

/-- `DecDenso` from the byte after `STX` on (R209). -/
def decDensoBody : List Byte → Decoding
  | [] => failed .short
  | len :: rest =>
    if rest.length < len.toNat + 2 then failed .short
    else if rest.getD (len.toNat + 1) 0#8 ≠ Config.etx then failed .frameErr
    else if rest.getD len.toNat 0#8 ≠ twoc8 (rest.take len.toNat) then failed .chkErr
    else { status := .ok, payload := rest.take len.toNat }

/-- `DecDenso(xs)` (R209): the least index of `STX` starts the frame. -/
def decDenso : List Byte → Decoding
  | [] => failed .timeout
  | b :: rest => if b = Config.stx then decDensoBody rest else decDenso rest

/-- How many bytes of `xs` a Bosch receive takes (R209); the bytes beyond are stray. -/
def consumedBosch : List Byte → Nat
  | [] => 0
  | len :: rest => if len = 0#8 then 1 else 1 + min rest.length (len.toNat + 1)

/-- How many bytes of `xs` a Denso receive takes (R209); the bytes beyond are stray. -/
def consumedDenso : List Byte → Nat
  | [] => 0
  | b :: rest =>
    if b = Config.stx then
      match rest with
      | [] => 1
      | len :: body => 2 + min body.length (len.toNat + 2)
    else 1 + consumedDenso rest

/-- The data bytes of the consecutive frames that carry `bs`, from sequence number `sn` on, at most `fuel` frames (R100).
Each is `0x2 SN` and up to 7 message bytes; the last is filled to 8 bytes with `pad` (entry 18). -/
def consecutiveFrames (id : BitVec 11) (pad : Byte) : Nat → BitVec 4 → List Byte → List CanFrame
  | 0, _, _ => []
  | _, _, [] => []
  | fuel + 1, sn, b :: bs =>
    canFrameOf id 8 (((0x2#4 ++ sn : BitVec 8) :: ((b :: bs).take Config.cfDataBytes)) ++
      List.replicate (Config.cfDataBytes - (b :: bs).length) pad)
      :: consecutiveFrames id pad fuel (sn + 1#4) ((b :: bs).drop Config.cfDataBytes)

/-- The frame sequence R98 to R100 give for a message: one single frame for at most 7 bytes, else a first frame and
consecutive frames from sequence number 1 (R230, R245; entry 18). -/
def messageFrames (id : BitVec 11) (pad : Byte) (m : List Byte) : List CanFrame :=
  if m.length ≤ Config.sfCapacity then
    [canFrameOf id 8 ((BitVec.ofNat 8 m.length :: m) ++ List.replicate (Config.sfCapacity - m.length) pad)]
  else
    canFrameOf id 8 ((0x1#4 ++ (BitVec.ofNat 12 m.length).extractLsb' 8 4 : BitVec 8) ::
        (BitVec.ofNat 12 m.length).extractLsb' 0 8 :: m.take Config.ffDataBytes)
      :: consecutiveFrames id pad m.length 1#4 (m.drop Config.ffDataBytes)

end Sys2Proof.Machine
end

