-- ==== Sys2Proof/Machine/Operands.lean ====
section
/-! DEFINITION. The operand forms: the count operand of 30_encoding.md R91 as a receive length, and the host
registers of 10_state.md R40 to R51, each the view of the state that a host access names by its offset. -/

namespace Sys2Proof.Machine

/-- A count operand or a `LEN` byte as a 12-bit payload length, zero-extended (R10, R91). -/
def lengthOfByte (b : Byte) : BitVec 12 := b.setWidth 12

/-- The eleven host registers (20_memory.md R63). -/
inductive HostReg where
  | cmd
  | status
  | ckResult
  | crcCfg
  | canId
  | txLen
  | rxLen
  | rxInfo
  | rxPtr
  | rxData
  | rxProg
deriving DecidableEq, Repr

/-- The offset of a register (R63). -/
def regOffset : HostReg → BitVec 8
  | .cmd => 0x00#8
  | .status => 0x04#8
  | .ckResult => 0x08#8
  | .crcCfg => 0x0C#8
  | .canId => 0x10#8
  | .txLen => 0x14#8
  | .rxLen => 0x18#8
  | .rxInfo => 0x1C#8
  | .rxPtr => 0x20#8
  | .rxData => 0x24#8
  | .rxProg => 0x28#8

/-- The register mapped at an offset; every offset not listed is unmapped (R63, R71). -/
def regAt (off : BitVec 8) : Option HostReg :=
  match off.toNat with
  | 0x00 => some .cmd
  | 0x04 => some .status
  | 0x08 => some .ckResult
  | 0x0C => some .crcCfg
  | 0x10 => some .canId
  | 0x14 => some .txLen
  | 0x18 => some .rxLen
  | 0x1C => some .rxInfo
  | 0x20 => some .rxPtr
  | 0x24 => some .rxData
  | 0x28 => some .rxProg
  | _ => none

/-- The register a host access reaches: the offset mapped and a multiple of 4, the access 32 bits wide (R66, R69). -/
def accessedReg (off : BitVec 8) (bits : Nat) : Option HostReg :=
  if bits = 32 ∧ off.toNat % 4 = 0 then regAt off else none

/-- The offset of a platform address in the block's 256-byte window at `base` (R71; `base` is `CSFB_BASE`, entry 13). -/
def windowOffset (base addr : Nat) : Option (BitVec 8) :=
  if base ≤ addr ∧ addr < base + 256 then some (BitVec.ofNat 8 (addr - base)) else none

/-- `STATUS` (R41). -/
def statusWord (s : State) : Word :=
  0#16 ++ BitVec.ofBool s.err.errStray ++ BitVec.ofBool s.err.errTxlen ++ BitVec.ofBool s.err.errHdx ++
    BitVec.ofBool s.err.errIll ++ rxPhaseCode s.rx.rxPhase ++ 0#1 ++ rxFamCode s.rx.rxFam ++ rxStCode s.rx.rxSt

/-- `CK_RESULT` (R42), computed from the current state on every read. -/
def ckResultWord (s : State) : Word :=
  crcOut s.crc s.ck.ckCrc ++ s.ck.ckXor ++ negByte s.ck.ckSum ++ s.ck.ckSum

/-- `CRC_CFG` (R43). -/
def crcCfgWord (s : State) : Word :=
  0#6 ++ BitVec.ofBool s.crc.crcRefout ++ BitVec.ofBool s.crc.crcRefin ++ s.crc.crcXorout ++ s.crc.crcInit ++
    s.crc.crcPoly

/-- `CAN_ID` (R44). -/
def canIdWord (s : State) : Word := 0#5 ++ s.can.respId ++ 0#5 ++ s.can.reqId

/-- `TX_LEN` (R45). -/
def txLenWord (s : State) : Word := s.tx.txLen.setWidth 32

/-- `RX_LEN` (R46). -/
def rxLenWord (s : State) : Word := s.rx.rxCommit.setWidth 32

/-- `RXBUF[i]` as the host may see it: 0 at and beyond `rxCommit` (R47, R49). -/
def committedByte (s : State) (i : BitVec 12) : Byte :=
  if i < s.rx.rxCommit then Memory.read s.rx.rxBuf i.toNat else 0#8

/-- `RX_INFO` (R47). -/
def rxInfoWord (s : State) : Word :=
  0#6 ++ BitVec.ofBool s.rx.chkMatch ++ BitVec.ofBool s.rx.chkSeen ++ s.rx.chkCalc ++ s.rx.chkRx ++
    committedByte s 0#12

/-- `RX_PTR` (R48). -/
def rxPtrWord (s : State) : Word := s.rxPtr.setWidth 32

/-- `RX_DATA` (R49). -/
def rxDataWord (s : State) : Word := (committedByte s s.rxPtr).setWidth 32

/-- `RX_PROG` (R50). -/
def rxProgWord (s : State) : Word := s.rx.rxSn ++ s.rx.rxExp ++ 0#4 ++ s.rx.rxIdx

/-- The value a host read of a register returns; `CMD` reads 0 (R40 to R50). -/
def regRead (r : HostReg) (s : State) : Word :=
  match r with
  | .cmd => 0#32
  | .status => statusWord s
  | .ckResult => ckResultWord s
  | .crcCfg => crcCfgWord s
  | .canId => canIdWord s
  | .txLen => txLenWord s
  | .rxLen => rxLenWord s
  | .rxInfo => rxInfoWord s
  | .rxPtr => rxPtrWord s
  | .rxData => rxDataWord s
  | .rxProg => rxProgWord s

/-- The fields a `CRC_CFG` write stores (R43). -/
def crcCfgOf (v : Word) : CrcCfg :=
  { crcPoly := v.extractLsb' 0 8, crcInit := v.extractLsb' 8 8, crcXorout := v.extractLsb' 16 8,
    crcRefin := v.getLsbD 24, crcRefout := v.getLsbD 25 }

/-- The fields a `CAN_ID` write stores (R44). -/
def canIdsOf (v : Word) : CanIds := { reqId := v.extractLsb' 0 11, respId := v.extractLsb' 16 11 }

/-- The field an `RX_PTR` write stores (R48). -/
def rxPtrOf (v : Word) : BitVec 12 := v.extractLsb' 0 12

end Sys2Proof.Machine
end

