-- ==== Sys2Proof/Machine/Checksum.lean ====
section
/-! DEFINITION. The checksum commands: 40_checksum.md R127 to R130. None is refused for the block's state. -/

namespace Sys2Proof.Machine

/-- `CK_INIT` (R127). -/
def execCkInit (s : State) : Result := .next (s.setCk (ckStart s.crc))

/-- `CK_FEED b` (R128). -/
def execCkFeed (b : Byte) (s : State) : Result := .next (s.setCk (feed s.crc s.ck b))

/-- `CK_FEED_TX` (R129): the transmit payload, as one step. -/
def execCkFeedTx (s : State) : Result := .next (s.setCk (feedAll s.crc s.ck s.txPayload))

/-- `CK_FEED_RX` (R130): the committed receive payload, as one step. -/
def execCkFeedRx (s : State) : Result := .next (s.setCk (feedAll s.crc s.ck s.rxPayload))

end Sys2Proof.Machine
end

