-- ==== Sys2Proof/Machine/Control.lean ====
section
/-! DEFINITION. The control commands: 44_control.md R270 to R272. -/

namespace Sys2Proof.Machine

/-- `NOP` (R270). -/
def execNop (s : State) : Result := .next s

/-- `SRST` (R271): exactly the reset input's effect (R320). -/
def execSrst (s : State) : Result := .next s.resetBlock

/-- `CLR_ERR` (R272). -/
def execClrErr (s : State) : Result := .next (s.setErr clearedFlags)

end Sys2Proof.Machine
end

