-- ==== Sys2Proof/Machine/Framer.lean ====
section
/-! DEFINITION. The transmit buffer and transmit commands: 41_framer.md R150 to R159. -/

namespace Sys2Proof.Machine

/-- `TX_CLR` (R151): the buffer's bytes are not cleared. -/
def execTxClr (s : State) : Result := .next (s.setTx { s.tx with txLen := 0#8 })

/-- The transmit unit with one byte appended (R152). -/
def txAppend (b : Byte) (t : TxUnit) : TxUnit :=
  { txBuf := Memory.write t.txBuf t.txLen.toNat b, txLen := t.txLen + 1#8 }

/-- `TX_PUSH b` (R152). -/
def execTxPush (b : Byte) (s : State) : Result :=
  if s.tx.txLen.toNat = Config.txBufSize then .next s.rejectTxlen else .next (s.setTx (txAppend b s.tx))

/-- `TX_RAW` (R153): every length is allowed, and the receiver is not armed. -/
def execTxRaw (s : State) : Result := transmit 0 Config.txBufSize (s.emitSerial s.txPayload) s

/-- `TX_RAW_B` (R154). -/
def execTxRawB (s : State) : Result :=
  transmit 0 Config.txBufSize ((s.emitSerial s.txPayload).arm .bosch .bLen 0#12) s

/-- `TX_RAW_D` (R155). -/
def execTxRawD (s : State) : Result :=
  transmit 0 Config.txBufSize ((s.emitSerial s.txPayload).arm .denso .dHunt 0#12) s

/-- `TX_RAW_C n` (R156). -/
def execTxRawC (n : Byte) (s : State) : Result :=
  withCount n s (transmit 0 Config.txBufSize ((s.emitSerial s.txPayload).arm .raw .rCap (lengthOfByte n)) s)

/-- `TX_BOSCH` (R157): 1 to 255 bytes. -/
def execTxBosch (s : State) : Result :=
  transmit 1 Config.txBufSize ((s.emitSerial (encBosch s.txPayload)).arm .bosch .bLen 0#12) s

/-- `TX_DENSO` (R158): 0 to 255 bytes. -/
def execTxDenso (s : State) : Result :=
  transmit 0 Config.txBufSize ((s.emitSerial (encDenso s.txPayload)).arm .denso .dHunt 0#12) s

/-- `TX_ISOTP_SF` (R159): 1 to 7 bytes, on identifier `reqId`. -/
def execTxIsotpSf (s : State) : Result :=
  transmit 1 Config.sfCapacity ((s.emitCan (encSF s.can.reqId s.txPayload)).arm .isotp .iFirst 0#12) s

end Sys2Proof.Machine
end

