-- ==== Sys2Proof/Machine/Isotp.lean ====
section
/-! DEFINITION. The ISO-TP reassembler: `RX_ARM_I` (43_isotp.md R231) and CAN input (R232 to R243). -/

namespace Sys2Proof.Machine

/-- `RX_ARM_I` (R231). -/
def execRxArmI (s : State) : Result := armCommand .isotp .iFirst 0#12 s

/-- The receiver with `bs` stored from index `at'` on. -/
def rxStoreAll (at' : Nat) (bs : List Byte) (r : RxUnit) : RxUnit :=
  { r with rxBuf := Memory.writeList r.rxBuf at' bs }

/-- Single frame in `I_FIRST` (R234). -/
def singleFrame (f : CanFrame) (s : State) : State :=
  let len := f.lo.toNat
  if len = 0 ∨ Config.sfCapacity < len ∨ f.dlc.val < 1 + len then s.complete .frameErr
  else s.setRx (rxComplete .ok
    { rxStoreAll 0 (f.slice 1 len) s.rx with rxExp := f.lo.setWidth 12, rxIdx := f.lo.setWidth 12 })

/-- First frame in `I_FIRST` (R235), with its flow-control frame sent in the same step (R236). -/
def firstFrame (f : CanFrame) (s : State) : State :=
  if f.dlc.val ≠ 8 then s.complete .frameErr
  else if f.totalLength.toNat < Config.minFirstFrameLen then s.complete .frameErr
  else (s.setRx
    { rxStoreAll 0 (f.slice 2 Config.ffDataBytes) s.rx with
      rxExp := f.totalLength, rxIdx := BitVec.ofNat 12 Config.ffDataBytes, rxSn := 1#4, rxPhase := .iCf }).emitCan
    (flowControl s.can.reqId)

/-- How many bytes a consecutive frame carries (R239): `min(7, rxExp - rxIdx)`. The difference is never negative in a
state that satisfies the invariant; elsewhere it is 0 (entry 10). -/
def owedBytes (r : RxUnit) : Nat := min Config.cfDataBytes (r.rxExp.toNat - r.rxIdx.toNat)

/-- The receiver after an accepted consecutive frame (R239). -/
def cfAccepted (f : CanFrame) (r : RxUnit) : RxUnit :=
  { rxStoreAll r.rxIdx.toNat (f.slice 1 (owedBytes r)) r with
    rxIdx := r.rxIdx + BitVec.ofNat 12 (owedBytes r), rxSn := r.rxSn + 1#4 }

/-- Consecutive frame in `I_CF` (R239): a bad sequence number wins over a short `dlc` (60_exceptions.md R299). -/
def consecutiveFrame (f : CanFrame) (s : State) : State :=
  if f.lo ≠ s.rx.rxSn then s.complete .seqErr
  else if f.dlc.val < 1 + owedBytes s.rx then s.complete .frameErr
  else if (cfAccepted f s.rx).rxIdx = s.rx.rxExp then s.setRx (rxComplete .ok (cfAccepted f s.rx))
  else s.setRx (cfAccepted f s.rx)

/-- A frame in phase `I_FIRST` (R234, R235, R237, R238, R243). -/
def inFirstPhase (f : CanFrame) (s : State) : State :=
  if f.dlc.val = 0 then s.complete .frameErr
  else if f.pci = 0#4 then singleFrame f s
  else if f.pci = 1#4 then firstFrame f s
  else if f.pci = 2#4 ∨ f.pci = 3#4 then s
  else s.complete .frameErr

/-- A frame in phase `I_CF` (R239 to R243). -/
def inCfPhase (f : CanFrame) (s : State) : State :=
  if f.dlc.val = 0 then s.complete .frameErr
  else if f.pci = 2#4 then consecutiveFrame f s
  else if f.pci = 3#4 then s
  else s.complete .frameErr

/-- A frame on `respId` for a receiver armed for `ISOTP`, by phase (R230). The other phases are unreachable here
(entry 8). -/
def canByPhase (f : CanFrame) (s : State) : Result :=
  match s.rx.rxPhase with
  | .iFirst => .next (inFirstPhase f s)
  | .iCf => .next (inCfPhase f s)
  | .none => .fault .noReceiveRule
  | .bLen => .fault .noReceiveRule
  | .bBody => .fault .noReceiveRule
  | .bChk => .fault .noReceiveRule
  | .dHunt => .fault .noReceiveRule
  | .dLen => .fault .noReceiveRule
  | .dBody => .fault .noReceiveRule
  | .dChk => .fault .noReceiveRule
  | .dEtx => .fault .noReceiveRule
  | .rCap => .fault .noReceiveRule

/-- A frame on `respId`, by what the receiver is armed for (R233). Armed with family `NONE` is unreachable (entry 8). -/
def canAccepted (f : CanFrame) (s : State) : Result :=
  if s.rx.rxSt ≠ .busy then .next s.stray
  else match s.rx.rxFam with
    | .isotp => canByPhase f s
    | .bosch => .next s.stray
    | .denso => .next s.stray
    | .raw => .next s.stray
    | .none => .fault .noReceiveRule

/-- A `CanRx` step (R232): a frame with another identifier is ignored. -/
def canInput (f : CanFrame) (s : State) : Result :=
  if f.id = s.can.respId then canAccepted f s else .next s

end Sys2Proof.Machine
end

