-- ==== Sys2Proof/Machine/Parser.lean ====
section
/-! DEFINITION. The receiver's serial side: the arming and cancel commands of 42_parser.md R184 to R187, serial
input by phase (R188 to R197, R206), and the timeout (R207). -/

namespace Sys2Proof.Machine

/-- `RX_ARM_B` (R184). -/
def execRxArmB (s : State) : Result := armCommand .bosch .bLen 0#12 s

/-- `RX_ARM_D` (R185). -/
def execRxArmD (s : State) : Result := armCommand .denso .dHunt 0#12 s

/-- `RX_CAP n` (R186). -/
def execRxCap (n : Byte) (s : State) : Result := withCount n s (armCommand .raw .rCap (lengthOfByte n) s)

/-- `RX_CANCEL` (R187): a no-op when not `BUSY`. -/
def execRxCancel (s : State) : Result := if s.rx.rxSt = .busy then .next (s.complete .cancelled) else .next s

/-- The receiver with a payload byte stored at `rxIdx` and `rxIdx` advanced (R190, R194, R197). -/
def rxStored (b : Byte) (r : RxUnit) : RxUnit :=
  { r with rxBuf := Memory.write r.rxBuf r.rxIdx.toNat b, rxIdx := r.rxIdx + 1#12 }

/-- A step that stores a byte in `RXBUF`: it faults where `rxIdx` is outside the buffer (20_memory.md R65; entry 7). -/
def storing (s : State) (r : RxUnit) : Result :=
  if s.rx.rxIdx.toNat < Config.rxBufSize then .next (s.setRx r) else .fault .rxBufOverflow

/-- Bosch `LEN` byte, phase `B_LEN` (R189). -/
def boschLen (b : Byte) (r : RxUnit) : RxUnit :=
  if b = 0#8 then rxComplete .empty r else { r with rxExp := lengthOfByte b, rxSum := b, rxPhase := .bBody }

/-- A summed payload byte, phases `B_BODY` and `D_BODY`: after the last one the phase is `after` (R190, R194). -/
def bodyByte (after : RxPhase) (b : Byte) (r : RxUnit) : RxUnit :=
  { rxStored b r with
    rxSum := r.rxSum + b
    rxPhase := if r.rxIdx + 1#12 = r.rxExp then after else r.rxPhase }

/-- The comparison a checksum byte makes (R34, R191, R195): the received byte `b` against the computed one. -/
def checked (b computed : Byte) (r : RxUnit) : RxUnit :=
  { r with chkRx := b, chkCalc := computed, chkSeen := true, chkMatch := decide (b = computed) }

/-- Bosch checksum byte, phase `B_CHK` (R191). -/
def boschCheck (b : Byte) (r : RxUnit) : RxUnit :=
  rxComplete (if b = r.rxSum then .ok else .chkErr) (checked b r.rxSum r)

/-- Denso hunt, phase `D_HUNT`: a byte other than `STX` is discarded (R192). -/
def densoHunt (b : Byte) (r : RxUnit) : RxUnit := if b = Config.stx then { r with rxPhase := .dLen } else r

/-- Denso `LEN` byte, phase `D_LEN` (R193). -/
def densoLen (b : Byte) (r : RxUnit) : RxUnit :=
  { r with rxExp := lengthOfByte b, rxSum := 0#8, rxPhase := if b = 0#8 then .dChk else .dBody }

/-- Denso checksum byte, phase `D_CHK` (R195). -/
def densoCheck (b : Byte) (r : RxUnit) : RxUnit :=
  { checked b (negByte r.rxSum) r with rxPhase := .dEtx }

/-- Denso `ETX` byte, phase `D_ETX`: a bad `ETX` wins over a bad checksum (R196). -/
def densoEtx (b : Byte) (r : RxUnit) : RxUnit :=
  if b ≠ Config.etx then rxComplete .frameErr r
  else if r.chkMatch then rxComplete .ok r
  else rxComplete .chkErr r

/-- Raw capture byte, phase `R_CAP` (R197). -/
def captureByte (b : Byte) (r : RxUnit) : RxUnit :=
  if r.rxIdx + 1#12 = r.rxExp then rxComplete .ok (rxStored b r) else rxStored b r

/-- A serial byte for an armed serial receiver, by phase (R188). The phases that wait for no serial byte are
unreachable here (entry 8). -/
def serialByPhase (b : Byte) (s : State) : Result :=
  match s.rx.rxPhase with
  | .bLen => .next (s.setRx (boschLen b s.rx))
  | .bBody => storing s (bodyByte .bChk b s.rx)
  | .bChk => .next (s.setRx (boschCheck b s.rx))
  | .dHunt => .next (s.setRx (densoHunt b s.rx))
  | .dLen => .next (s.setRx (densoLen b s.rx))
  | .dBody => storing s (bodyByte .dChk b s.rx)
  | .dChk => .next (s.setRx (densoCheck b s.rx))
  | .dEtx => .next (s.setRx (densoEtx b s.rx))
  | .rCap => storing s (captureByte b s.rx)
  | .none => .fault .noReceiveRule
  | .iFirst => .fault .noReceiveRule
  | .iCf => .fault .noReceiveRule

/-- A `SerialRx` step (R188, R206). -/
def serialInput (b : Byte) (s : State) : Result :=
  if s.rx.rxSt ≠ .busy ∨ s.rx.rxFam = .isotp then .next s.stray else serialByPhase b s

/-- Whether no frame has started yet (R207): a timeout then gives `TIMEOUT`, else `SHORT`. -/
def notStarted (r : RxUnit) : Bool :=
  match r.rxPhase with
  | .bLen => true
  | .dHunt => true
  | .iFirst => true
  | .rCap => r.rxIdx == 0#12
  | .none => false
  | .bBody => false
  | .bChk => false
  | .dLen => false
  | .dBody => false
  | .dChk => false
  | .dEtx => false
  | .iCf => false

/-- A `Timer` step (R207, R244). -/
def timeoutInput (s : State) : Result :=
  if s.rx.rxSt = .busy then .next (s.complete (if notStarted s.rx then .timeout else .short)) else .next s

end Sys2Proof.Machine
end

