-- ==== Sys2Proof/Machine/Dispatch.lean ====
section
/-! DEFINITION. What each command does: one arm per constructor of Instr, each one call of its meaning. -/

namespace Sys2Proof.Machine

def exec (i : Instr) (s : State) : Host.Outcome State Fault Refusal :=
  match i with
  | .nop => Sys2Proof.Machine.execNop s
  | .srst => Sys2Proof.Machine.execSrst s
  | .clrErr => Sys2Proof.Machine.execClrErr s
  | .ckInit => Sys2Proof.Machine.execCkInit s
  | .ckFeed b => Sys2Proof.Machine.execCkFeed b s
  | .ckFeedTx => Sys2Proof.Machine.execCkFeedTx s
  | .ckFeedRx => Sys2Proof.Machine.execCkFeedRx s
  | .txClr => Sys2Proof.Machine.execTxClr s
  | .txPush b => Sys2Proof.Machine.execTxPush b s
  | .txRaw => Sys2Proof.Machine.execTxRaw s
  | .txRawB => Sys2Proof.Machine.execTxRawB s
  | .txRawD => Sys2Proof.Machine.execTxRawD s
  | .txRawC n => Sys2Proof.Machine.execTxRawC n s
  | .txBosch => Sys2Proof.Machine.execTxBosch s
  | .txDenso => Sys2Proof.Machine.execTxDenso s
  | .txIsotpSf => Sys2Proof.Machine.execTxIsotpSf s
  | .rxArmB => Sys2Proof.Machine.execRxArmB s
  | .rxArmD => Sys2Proof.Machine.execRxArmD s
  | .rxArmI => Sys2Proof.Machine.execRxArmI s
  | .rxCap n => Sys2Proof.Machine.execRxCap n s
  | .rxCancel => Sys2Proof.Machine.execRxCancel s

end Sys2Proof.Machine
end

