-- ==== Sys2Proof/Machine/HostPort.lean ====
section
/-! DEFINITION. The host port (20_memory.md R60, R66, R70) and one step of each agent (00_scope.md R6). -/

namespace Sys2Proof.Machine

/-- A command word: the command it encodes, or the effect of an illegal word (10_state.md R40, 44_control.md R273). -/
def runWord (v : Word) (s : State) : Result :=
  match decode v with
  | .command i => exec i s
  | .illegal _ => .next s.illegal

/-- What a host write of `v` to a register does (R40, R43, R44, R48, R51, R70). -/
def regWrite (r : HostReg) (v : Word) (s : State) : Result :=
  match r with
  | .cmd => runWord v s
  | .crcCfg => .next (s.setCrc (crcCfgOf v))
  | .canId => .next (s.setCan (canIdsOf v))
  | .rxPtr => .next (s.setRxPtr (rxPtrOf v))
  | .status => .next s
  | .ckResult => .next s
  | .txLen => .next s
  | .rxLen => .next s
  | .rxInfo => .next s
  | .rxData => .next s
  | .rxProg => .next s

/-- A host read (R60, R66): the value in the state before the step, and no other effect. -/
def hostRead (off : BitVec 8) (bits : Nat) (s : State) : Result :=
  match accessedReg off bits with
  | some r => .next (s.emitRead (regRead r s))
  | none => .fault .busError

/-- A host write (R60, R66). -/
def hostWrite (off : BitVec 8) (bits : Nat) (v : Word) (s : State) : Result :=
  match accessedReg off bits with
  | some r => regWrite r v s
  | none => .fault .busError

/-- One step of one agent (R6). -/
def takeEvent (e : Event) (s : State) : Result :=
  match e with
  | .hostRead off bits => hostRead off bits s
  | .hostWrite off bits v => hostWrite off bits v s
  | .serialRx b => serialInput b s
  | .canRx f => canInput f s
  | .timer => timeoutInput s
  | .reset => .next s.resetBlock

/-- The next agent's step (R5, R73): the head of the inputs to come. With no input to come nothing happens, because
the block never steps on its own (R6, R322; entry 2). -/
def takeInput (s : State) : Result :=
  match s.inputs with
  | [] => .next s
  | e :: rest => takeEvent e (s.setInputs rest)

/-- The host's write of a command word to `CMD` (R40). -/
def commandWrite (v : Word) : Event := .hostWrite (regOffset .cmd) 32 v

/-- `s` with one more input to come, ahead of the others. -/
def State.pushInput (s : State) (e : Event) : State := s.setInputs (e :: s.inputs)

end Sys2Proof.Machine
end

