-- ==== Sys2Proof/Machine/Step.lean ====
section
/-! DEFINITION. One step of the machine, and the placing of a command word where the next step takes it. -/

namespace Sys2Proof.Machine

/-- One step: the next agent's step (00_scope.md R5, R6; 20_memory.md R73; entry 1). -/
def step (s : State) : Host.Outcome State Fault Refusal := takeInput s

/-- `s` whose next step is the host's write of the table word to `CMD` (10_state.md R21, R40; entry 17). -/
def State.withFetchWord (s : State) (nbits w : Nat) : State := s.pushInput (commandWrite (tableWord nbits w))

end Sys2Proof.Machine
end

