-- ==== Sys2Proof/Machine/Assembler.lean ====
section
/-! DEFINITION. The listing notation of 30_encoding.md R104 and the pseudo-instructions of R105, as syntax: what
a line is, the events it stands for, and how it is written (entry 16). -/

namespace Sys2Proof.Machine

/-- One line of a listing (R104, R105). -/
inductive AsmLine where
  /-- A command. -/
  | command (i : Instr)
  /-- `TX_LOAD b0, ..., bk`. -/
  | txLoad (bs : List Byte)
  /-- `CK_OVER b0, ..., bk`. -/
  | ckOver (bs : List Byte)
  /-- `BOSCH_REQ b0, ..., bk`. -/
  | boschReq (bs : List Byte)
  /-- `DENSO_REQ b0, ..., bk`. -/
  | densoReq (bs : List Byte)
  /-- `UDS_REQ b0, ..., bk`, at most 7 bytes. -/
  | udsReq (bs : List Byte)
  /-- `WAKE b0, ..., bk`. -/
  | wake (bs : List Byte)
  /-- `RETRY`: the last transmit command again. -/
  | retry
  /-- `<rx ...>`: serial bytes arriving, in order. -/
  | rx (bs : List Byte)
  /-- `<can id: ...>`: one CAN frame whose `dlc` is the number of bytes shown. -/
  | can (id : BitVec 11) (bs : List Byte)
  /-- `<timeout>`. -/
  | timeout
  /-- `<reset>`. -/
  | reset
  /-- `rd REG -> value`: a host read and the value it returns. -/
  | rd (r : HostReg) (v : Word)
  /-- `wr REG, value`: a host register write. -/
  | wr (r : HostReg) (v : Word)
deriving DecidableEq, Repr

/-- The commands `TX_LOAD` expands to (R105). -/
def loadCommands (bs : List Byte) : List Instr := .txClr :: bs.map .txPush

/-- Whether a command is one `RETRY` may repeat (R105). -/
def isTransmit : Instr → Bool
  | .txRaw => true
  | .txRawB => true
  | .txRawD => true
  | .txRawC _ => true
  | .txBosch => true
  | .txDenso => true
  | .txIsotpSf => true
  | .nop => false
  | .srst => false
  | .clrErr => false
  | .ckInit => false
  | .ckFeed _ => false
  | .ckFeedTx => false
  | .ckFeedRx => false
  | .txClr => false
  | .txPush _ => false
  | .rxArmB => false
  | .rxArmD => false
  | .rxArmI => false
  | .rxCap _ => false
  | .rxCancel => false

/-- The commands of a line, given the last transmit command before it: `none` where R105 gives no expansion (no
byte, more than 7 bytes for `UDS_REQ`, `RETRY` with nothing to repeat). A line that is no command has none. -/
def lineCommands (last : Option Instr) : AsmLine → Option (List Instr)
  | .command i => some [i]
  | .txLoad bs => if bs = [] then none else some (loadCommands bs)
  | .ckOver bs => if bs = [] then none else some (.ckInit :: bs.map .ckFeed)
  | .boschReq bs => if bs = [] then none else some (loadCommands bs ++ [.txBosch])
  | .densoReq bs => if bs = [] then none else some (loadCommands bs ++ [.txDenso])
  | .udsReq bs => if bs = [] ∨ Config.sfCapacity < bs.length then none else some (loadCommands bs ++ [.txIsotpSf])
  | .wake bs => if bs = [] then none else some (loadCommands bs ++ [.txRaw])
  | .retry => last.map (fun i => [i])
  | .rx _ => some []
  | .can _ _ => some []
  | .timeout => some []
  | .reset => some []
  | .rd _ _ => some []
  | .wr _ _ => some []

/-- The inputs of a line that is not a command (R104). -/
def lineInputs : AsmLine → Option (List Event)
  | .rx bs => some (bs.map .serialRx)
  | .can id bs => if h : bs.length < 9 then some [.canRx (canFrameOf id ⟨bs.length, h⟩ bs)] else none
  | .timeout => some [.timer]
  | .reset => some [.reset]
  | .rd r _ => some [.hostRead (regOffset r) 32]
  | .wr r v => some [.hostWrite (regOffset r) 32 v]
  | .command _ => some []
  | .txLoad _ => some []
  | .ckOver _ => some []
  | .boschReq _ => some []
  | .densoReq _ => some []
  | .udsReq _ => some []
  | .wake _ => some []
  | .retry => some []

/-- The last transmit command of a list, else the one before it. -/
def lastTransmit (last : Option Instr) (is : List Instr) : Option Instr :=
  match (is.filter isTransmit).getLast? with
  | some i => some i
  | none => last

/-- The inputs a listing stands for: each command is one `CMD` write, a step of its own (R104, R105). -/
def assembleFrom (last : Option Instr) : List AsmLine → Option (List Event)
  | [] => some []
  | l :: ls =>
    match lineCommands last l, lineInputs l with
    | some is, some es =>
      (assembleFrom (lastTransmit last is) ls).map (fun rest => is.map (fun i => commandWrite (encode i)) ++ es ++ rest)
    | _, _ => none

/-- The inputs of a whole listing. -/
def assemble (ls : List AsmLine) : Option (List Event) := assembleFrom none ls

/-- The values the `rd` lines of a listing say the reads return, in order (R104). -/
def expectedReads : List AsmLine → List Word
  | [] => []
  | .rd _ v :: ls => v :: expectedReads ls
  | _ :: ls => expectedReads ls

/-! ## How a line is written -/

/-- The digits of `n` in upper-case hexadecimal, at least `digits` of them. -/
def hexText (digits n : Nat) : String :=
  (String.ofList (List.replicate (digits - (Nat.toDigits 16 n).length) '0' ++ Nat.toDigits 16 n)).toUpper

/-- A mnemonic as spec/opcode_table.json spells it (R92). -/
def mnemonicText : Instr → String
  | .nop => "NOP"
  | .srst => "SRST"
  | .clrErr => "CLR_ERR"
  | .ckInit => "CK_INIT"
  | .ckFeed _ => "CK_FEED"
  | .ckFeedTx => "CK_FEED_TX"
  | .ckFeedRx => "CK_FEED_RX"
  | .txClr => "TX_CLR"
  | .txPush _ => "TX_PUSH"
  | .txRaw => "TX_RAW"
  | .txRawB => "TX_RAW_B"
  | .txRawD => "TX_RAW_D"
  | .txRawC _ => "TX_RAW_C"
  | .txBosch => "TX_BOSCH"
  | .txDenso => "TX_DENSO"
  | .txIsotpSf => "TX_ISOTP_SF"
  | .rxArmB => "RX_ARM_B"
  | .rxArmD => "RX_ARM_D"
  | .rxArmI => "RX_ARM_I"
  | .rxCap _ => "RX_CAP"
  | .rxCancel => "RX_CANCEL"

/-- A command as R104 writes it: the mnemonic, and for an operand one space and `0xHH` or a decimal count. -/
def commandText : Instr → String
  | .ckFeed b => mnemonicText (.ckFeed b) ++ " 0x" ++ hexText 2 b.toNat
  | .txPush b => mnemonicText (.txPush b) ++ " 0x" ++ hexText 2 b.toNat
  | .txRawC n => mnemonicText (.txRawC n) ++ " " ++ toString n.toNat
  | .rxCap n => mnemonicText (.rxCap n) ++ " " ++ toString n.toNat
  | i => mnemonicText i

/-- A register's name (20_memory.md R63). -/
def regText : HostReg → String
  | .cmd => "CMD"
  | .status => "STATUS"
  | .ckResult => "CK_RESULT"
  | .crcCfg => "CRC_CFG"
  | .canId => "CAN_ID"
  | .txLen => "TX_LEN"
  | .rxLen => "RX_LEN"
  | .rxInfo => "RX_INFO"
  | .rxPtr => "RX_PTR"
  | .rxData => "RX_DATA"
  | .rxProg => "RX_PROG"

/-- A pseudo-instruction's operand bytes, separated by commas (R105). -/
def operandsText (bs : List Byte) : String := String.intercalate ", " (bs.map (fun b => "0x" ++ hexText 2 b.toNat))

/-- The bytes of an input event, separated by spaces (R104). -/
def bytesText (bs : List Byte) : String := String.intercalate " " (bs.map (fun b => hexText 2 b.toNat))

/-- A line as R104 and R105 write it. -/
def lineText : AsmLine → String
  | .command i => commandText i
  | .txLoad bs => "TX_LOAD " ++ operandsText bs
  | .ckOver bs => "CK_OVER " ++ operandsText bs
  | .boschReq bs => "BOSCH_REQ " ++ operandsText bs
  | .densoReq bs => "DENSO_REQ " ++ operandsText bs
  | .udsReq bs => "UDS_REQ " ++ operandsText bs
  | .wake bs => "WAKE " ++ operandsText bs
  | .retry => "RETRY"
  | .rx bs => "<rx " ++ bytesText bs ++ ">"
  | .can id bs => "<can " ++ hexText 3 id.toNat ++ ": " ++ bytesText bs ++ ">"
  | .timeout => "<timeout>"
  | .reset => "<reset>"
  | .rd r v => "rd " ++ regText r ++ " -> 0x" ++ hexText 8 v.toNat
  | .wr r v => "wr " ++ regText r ++ ", 0x" ++ hexText 8 v.toNat

end Sys2Proof.Machine
end

