-- ==== Sys2Proof/Safety.lean ====
section
/-! DEFINITION. The terms the statements use: the state invariant of 10_state.md R54, what no rule may read,
and runs over lists of inputs. -/

namespace Sys2Proof.Machine

/-- The invariant of the receiver: items 3 to 7 of R54, and what they rest on: the phase agrees with the family (R33),
the counters are where the phase says (R27), and the checksum record is as R34 says. Items 1 and 2 hold by the
fields' widths. -/
abbrev RxInv (r : RxUnit) : Prop :=
  (r.rxPhase = .none ↔ r.rxSt ≠ .busy) ∧
  (r.rxCommit ≠ 0#12 → r.rxSt = .ok) ∧
  (r.rxSt = .ok → r.rxCommit = r.rxExp ∧ r.rxExp = r.rxIdx) ∧
  (r.rxFam = .none → r.rxSt = .idle) ∧
  (r.rxPhase ∈ [.bLen, .bBody, .bChk] → r.rxFam = .bosch) ∧
  (r.rxPhase ∈ [.dHunt, .dLen, .dBody, .dChk, .dEtx] → r.rxFam = .denso) ∧
  (r.rxPhase ∈ [.iFirst, .iCf] → r.rxFam = .isotp) ∧
  (r.rxPhase = .rCap → r.rxFam = .raw) ∧
  (r.rxPhase ∈ [.bLen, .dHunt, .dLen, .iFirst] → r.rxIdx = 0#12) ∧
  (r.rxPhase ∈ [.bBody, .dBody, .iCf, .rCap] → r.rxIdx < r.rxExp) ∧
  (r.rxPhase ∈ [.bChk, .dChk, .dEtx] → r.rxIdx = r.rxExp) ∧
  (r.rxPhase = .dEtx → r.chkSeen = true) ∧
  (r.chkSeen = true → r.chkMatch = decide (r.chkRx = r.chkCalc)) ∧
  (r.chkSeen = false → r.chkMatch = false ∧ r.chkRx = 0#8 ∧ r.chkCalc = 0#8) ∧
  (r.rxFam ∈ [.none, .isotp, .raw] → r.chkSeen = false) ∧
  (r.rxSt = .ok → r.rxFam ∈ [.bosch, .denso] → r.chkMatch = true)

/-- The invariant of the machine: the receiver's, and the canonical form of both buffers. -/
abbrev Inv (s : State) : Prop :=
  RxInv s.rx ∧ Memory.wf Config.txBufSize s.tx.txBuf = true ∧ Memory.wf Config.rxBufSize s.rx.rxBuf = true

/-- `s` and `t` differ at most in buffer bytes no rule reads: at or beyond `txLen` (R25), and at or beyond `rxIdx`. -/
def SameVisible (s t : State) : Prop :=
  s.setRx { s.rx with rxBuf := [] } = (t.setRx { t.rx with rxBuf := [] }).setTx { t.tx with txBuf := s.tx.txBuf } ∧
  (∀ i, i < s.tx.txLen.toNat → Memory.read s.tx.txBuf i = Memory.read t.tx.txBuf i) ∧
  (∀ i, i < s.rx.rxIdx.toNat → Memory.read s.rx.rxBuf i = Memory.read t.rx.rxBuf i)

/-- Two CAN frames that differ at most in data bytes at or beyond their `dlc` (20_memory.md R62). -/
def SameFrame (f g : CanFrame) : Prop :=
  f.id = g.id ∧ f.dlc = g.dlc ∧ f.bytes.take f.dlc.val = g.bytes.take g.dlc.val

/-- The machine run over the inputs `es`, one step each, with nothing else to come. -/
def runInputs (s : State) (es : List Event) : Result := Sys2Proof.core.run es.length (s.setInputs es)

/-- The events a byte list makes on the serial port, in order (20_memory.md R61). -/
def serialEvents (bs : List Byte) : List Event := bs.map .serialRx

/-- The events a frame list makes on the CAN port, in order (20_memory.md R62). -/
def canEvents (fs : List CanFrame) : List Event := fs.map .canRx

/-- The host writes of a list of commands, one `CMD` write each. -/
def commandEvents (is : List Instr) : List Event := is.map (fun i => commandWrite (encode i))

/-- Buffer `m'` is `m` with the bytes `bs` stored from index `a` on, and every other byte as before. -/
def StoredAt (m m' : Memory) (a : Nat) (bs : List Byte) : Prop :=
  ∀ i, Memory.read m' i = if a ≤ i ∧ i < a + bs.length then bs.getD (i - a) 0#8 else Memory.read m i

/-- What the machine does when the next agent's step is `e`: after it, the inputs to come are those of `s`. -/
def onInput (s : State) (e : Event) : Result := step (s.pushInput e)

/-- The event is the host's write of a word that decodes to the command `i` (R40). -/
def IsCommand (e : Event) (i : Instr) : Prop := ∃ v, e = .hostWrite 0x00#8 32 v ∧ decode v = .command i

/-- The word `v` is illegal: it decodes to no command, and writing it to `CMD` sets `errIll` and does nothing else
(R93, R273). -/
def IllegalWrite (v : Word) : Prop :=
  (∃ why, decode v = .illegal why) ∧
  ∀ s : State, onInput s (.hostWrite 0x00#8 32 v) = .next { s with err := { s.err with errIll := true } }

/-- Opcode `op` encodes `i` with `IMM = 0`, and is illegal with any other `IMM` (R91, R93 case 3). -/
def TakesNoOperand (op : Byte) (i : Instr) : Prop :=
  decode (0#16 ++ op ++ 0#8) = .command i ∧ ∀ imm : Byte, imm ≠ 0#8 → IllegalWrite (0#16 ++ op ++ imm)

/-- Opcode `op` takes any byte operand (R91). -/
def TakesByte (op : Byte) (i : Byte → Instr) : Prop :=
  ∀ b : Byte, decode (0#16 ++ op ++ b) = .command (i b)

/-- Opcode `op` takes a count from 1 to 255, and is illegal with count 0 (R91, R93 case 4). -/
def TakesCount (op : Byte) (i : Byte → Instr) : Prop :=
  (∀ n : Byte, n ≠ 0#8 → decode (0#16 ++ op ++ n) = .command (i n)) ∧ IllegalWrite (0#16 ++ op ++ 0#8)

/-- The reset values of R53: every field but the bytes of the two buffers, which R53 leaves unspecified. -/
abbrev ResetValues (s : State) : Prop :=
  s.ck.ckSum = 0x00#8 ∧ s.ck.ckXor = 0x00#8 ∧ s.ck.ckCrc = 0x00#8 ∧
  s.crc.crcPoly = 0x07#8 ∧ s.crc.crcInit = 0x00#8 ∧ s.crc.crcXorout = 0x00#8 ∧
  s.crc.crcRefin = false ∧ s.crc.crcRefout = false ∧
  s.can.reqId = 0x7E0#11 ∧ s.can.respId = 0x7E8#11 ∧
  s.tx.txLen = 0#8 ∧
  s.rx.rxSt = .idle ∧ s.rx.rxFam = .none ∧ s.rx.rxPhase = .none ∧
  s.rx.rxExp = 0#12 ∧ s.rx.rxIdx = 0#12 ∧ s.rx.rxCommit = 0#12 ∧ s.rxPtr = 0#12 ∧
  s.rx.rxSum = 0#8 ∧ s.rx.rxSn = 0#4 ∧
  s.rx.chkRx = 0x00#8 ∧ s.rx.chkCalc = 0x00#8 ∧ s.rx.chkSeen = false ∧ s.rx.chkMatch = false ∧
  s.err.errIll = false ∧ s.err.errHdx = false ∧ s.err.errTxlen = false ∧ s.err.errStray = false

/-- The receiver is not armed (R13, R180). -/
abbrev Idle (s : State) : Prop := s.rx.rxSt ≠ .busy

/-- A receive armed by `arm`, the serial bytes `xs`, and one timeout, ends with status `st` and payload `p` (R209). -/
def EndsWith (s : State) (arm : Instr) (xs : List Byte) (st : RxSt) (p : List Byte) : Prop :=
  ∃ t, runInputs s (commandEvents [arm] ++ serialEvents xs ++ [.timer]) = .next t ∧
    t.rx.rxSt = st ∧ t.rxPayload = p

/-- The payload of a completed receive as R209 reports it: the status, and the bytes committed. -/
def State.decoding (s : State) : Decoding := { status := s.rx.rxSt, payload := s.rxPayload }

end Sys2Proof.Machine
end

