-- ==== Sys2Proof/Certificates/Slice0/Obligations.lean ====
section
/-! DEFINITION. The statements for the provers. Each cites the rule of spec/ it formalises; a statement that rests on a
choice of the model says so and names the log entry. -/

open Sys2Proof Sys2Proof.Machine

/-! ## Encoding -/

/-- R92: the opcode map, one word of each row. -/
def Obligations.DecodeReadsTheOpcodeMap : Prop :=
  decode 0x00000000#32 = .command .nop ∧
  decode 0x00000100#32 = .command .srst ∧
  decode 0x00000200#32 = .command .clrErr ∧
  decode 0x00001000#32 = .command .ckInit ∧
  (∀ b : Byte, decode (0x000011#24 ++ b) = .command (.ckFeed b)) ∧
  decode 0x00001200#32 = .command .ckFeedTx ∧
  decode 0x00001300#32 = .command .ckFeedRx ∧
  decode 0x00002000#32 = .command .txClr ∧
  (∀ b : Byte, decode (0x000021#24 ++ b) = .command (.txPush b)) ∧
  decode 0x00002200#32 = .command .txRaw ∧
  decode 0x00002300#32 = .command .txRawB ∧
  decode 0x00002400#32 = .command .txRawD ∧
  (∀ n : Byte, n ≠ 0#8 → decode (0x000025#24 ++ n) = .command (.txRawC n)) ∧
  decode 0x00002800#32 = .command .txBosch ∧
  decode 0x00002900#32 = .command .txDenso ∧
  decode 0x00002A00#32 = .command .txIsotpSf ∧
  decode 0x00003000#32 = .command .rxArmB ∧
  decode 0x00003100#32 = .command .rxArmD ∧
  decode 0x00003200#32 = .command .rxArmI ∧
  (∀ n : Byte, n ≠ 0#8 → decode (0x000033#24 ++ n) = .command (.rxCap n)) ∧
  decode 0x00003F00#32 = .command .rxCancel

/-- Decoding the word of any well-formed command gives the command back (R92, R94). -/
def Obligations.DecodeOfEncodeIsTheCommand : Prop :=
  ∀ i : Instr, wellFormed i = true → decode (encode i) = .command i

/-- A word is legal exactly when it is the word of a well-formed command, and of that one only (R92 to R95). -/
def Obligations.LegalWordsAreExactlyTheEncodings : Prop :=
  ∀ (v : Word) (i : Instr), decode v = .command i ↔ wellFormed i = true ∧ encode i = v

/-- The opcodes of R92 whose `IMM` column is 0. -/
abbrev plainOpcodes : List Byte :=
  [0x00#8, 0x01#8, 0x02#8, 0x10#8, 0x12#8, 0x13#8, 0x20#8, 0x22#8, 0x23#8, 0x24#8, 0x28#8, 0x29#8, 0x2A#8, 0x30#8,
   0x31#8, 0x32#8, 0x3F#8]

/-- The opcodes of R92 that take an operand. -/
abbrev operandOpcodes : List Byte := [0x11#8, 0x21#8, 0x25#8, 0x33#8]

/-- R93, R273: which words are illegal, and that such a word sets `errIll` and has no other effect. -/
def Obligations.IllegalWordsSetErrIllOnly : Prop :=
  (∀ v : Word, (∃ why, decode v = .illegal why) ↔
    (v.extractLsb' 16 16 ≠ 0#16 ∨
     v.extractLsb' 8 8 ∉ plainOpcodes ++ operandOpcodes ∨
     (v.extractLsb' 8 8 ∈ plainOpcodes ∧ v.extractLsb' 0 8 ≠ 0#8) ∨
     ((v.extractLsb' 8 8 = 0x25#8 ∨ v.extractLsb' 8 8 = 0x33#8) ∧ v.extractLsb' 0 8 = 0#8))) ∧
  (∀ v : Word, (∃ why, decode v = .illegal why) → IllegalWrite v) ∧
  ((List.range 256).filter (fun op => BitVec.ofNat 8 op ∉ plainOpcodes ++ operandOpcodes)).length = 235

/-! ## The step -/

/-- R40: a write to `CMD` executes the command its value encodes, within that step; a read of `CMD` returns 0. -/
def Obligations.StepRunsTheDecodedCommand : Prop :=
  ∀ (s : State) (rest : List Event),
    (∀ (v : Word) (i : Instr), s.inputs = .hostWrite 0x00#8 32 v :: rest → decode v = .command i →
      step s = exec i { s with inputs := rest }) ∧
    (s.inputs = .hostRead 0x00#8 32 :: rest →
      step s = .next { s with inputs := rest, hostReads := s.hostReads ++ [0#32] })

/-- The model's own input list (entries 1, 2 and 17, DESIGN CHOICE): with nothing to come a step changes nothing, and
a word placed by `withFetchWord` is the command the very next step runs. -/
def Obligations.ModelInputListConventions : Prop :=
  (∀ s : State, s.inputs = [] → step s = .next s) ∧
  (∀ (s : State) (w : Nat) (i : Instr), decodeTableWord 32 w = some i → step (s.withFetchWord 32 w) = exec i s)

/-! ## Control commands and reset -/

/-- R270, R272: `NOP` changes nothing; `CLR_ERR` clears the four sticky flags and nothing else. -/
def Obligations.NopAndClrErr : Prop :=
  TakesNoOperand 0x00#8 .nop ∧ TakesNoOperand 0x02#8 .clrErr ∧
  ∀ s : State, exec .nop s = .next s ∧
    exec .clrErr s = .next { s with err := { errIll := false, errHdx := false, errTxlen := false, errStray := false } }

/-- R271, R320, R53: `SRST` and the reset input have the same effect from every state: every field takes its reset value,
and the transmit histories keep everything. -/
def Obligations.SoftResetAndResetInputRestoreEveryField : Prop :=
  TakesNoOperand 0x01#8 .srst ∧
  ∀ s : State, onInput s .reset = exec .srst s ∧
    ∃ t, exec .srst s = .next t ∧ ResetValues t ∧ t.serialOut = s.serialOut ∧ t.canOut = s.canOut ∧
      t.hostReads = s.hostReads ∧ t.inputs = s.inputs

/-- The state after reset holds the values of R53, and each host register then reads the reset value its rule gives
(R42 to R50). -/
def Obligations.ResetStateHoldsTheResetValues : Prop :=
  ResetValues State.reset ∧
  regRead .cmd State.reset = 0#32 ∧ regRead .status State.reset = 0#32 ∧ regRead .ckResult State.reset = 0#32 ∧
  regRead .crcCfg State.reset = 0x00000007#32 ∧ regRead .canId State.reset = 0x07E807E0#32 ∧
  regRead .txLen State.reset = 0#32 ∧ regRead .rxLen State.reset = 0#32 ∧ regRead .rxInfo State.reset = 0#32 ∧
  regRead .rxPtr State.reset = 0#32 ∧ regRead .rxData State.reset = 0#32 ∧ regRead .rxProg State.reset = 0#32

/-! ## The checksum unit -/

/-- R127: `CK_INIT` starts a new checksum, in every state; `CRC8` is then `Out(crcInit)`. -/
def Obligations.CkInitStartsANewChecksum : Prop :=
  TakesNoOperand 0x10#8 .ckInit ∧
  ∀ s : State, ∃ t, exec .ckInit s = .next t ∧
    t = { s with ck := { ckSum := 0#8, ckXor := 0#8, ckCrc := s.crc.crcInit } } ∧
    (regRead .ckResult t).extractLsb' 24 8 = crcOut s.crc s.crc.crcInit

/-- R128, R126: `CK_FEED b` advances the three accumulators together; 256 feeds of 0x01 bring `ckSum` back, and feeding a
byte twice brings `ckXor` back. -/
def Obligations.CkFeedAdvancesTheAccumulators : Prop :=
  TakesByte 0x11#8 .ckFeed ∧
  (∀ (b : Byte) (s : State), exec (.ckFeed b) s =
    .next { s with ck := { ckSum := BitVec.ofNat 8 ((s.ck.ckSum.toNat + b.toNat) % 256), ckXor := s.ck.ckXor ^^^ b,
                           ckCrc := crcStep s.crc s.ck.ckCrc b } }) ∧
  (∀ s : State, ∃ t, runInputs s (commandEvents (List.replicate 256 (.ckFeed 0x01#8))) = .next t ∧
    t.ck.ckSum = s.ck.ckSum) ∧
  (∀ (b : Byte) (s : State), ∃ t, runInputs s (commandEvents [.ckFeed b, .ckFeed b]) = .next t ∧
    t.ck.ckXor = s.ck.ckXor)

/-- R129, R130: `CK_FEED_TX` feeds `txBuf[0 .. txLen-1]` and `CK_FEED_RX` feeds `rxBuf[0 .. rxCommit-1]`, byte by byte in
order and as one step, and neither changes anything else. -/
def Obligations.CkFeedOfABufferFeedsItsPayload : Prop :=
  TakesNoOperand 0x12#8 .ckFeedTx ∧ TakesNoOperand 0x13#8 .ckFeedRx ∧
  ∀ s : State,
    exec .ckFeedTx s = .next { s with ck :=
      ((List.range s.tx.txLen.toNat).map (Memory.read s.tx.txBuf)).foldl (feed s.crc) s.ck } ∧
    exec .ckFeedRx s = .next { s with ck :=
      ((List.range s.rx.rxCommit.toNat).map (Memory.read s.rx.rxBuf)).foldl (feed s.crc) s.ck } ∧
    (s.tx.txLen = 0#8 → exec .ckFeedTx s = .next s) ∧ (s.rx.rxCommit = 0#12 → exec .ckFeedRx s = .next s)

/-- R126: after `CK_INIT` and a feed of each byte of `seq`, the four fields of `CK_RESULT` are the four checksums of `seq`. -/
def Obligations.CkResultIsTheFourChecksums : Prop :=
  (∀ (cfg : CrcCfg) (a : CkAcc) (b : Byte), feed cfg a b =
    { ckSum := BitVec.ofNat 8 ((a.ckSum.toNat + b.toNat) % 256), ckXor := a.ckXor ^^^ b,
      ckCrc := crcStep cfg a.ckCrc b }) ∧
  ∀ (s : State) (seq : List Byte),
    ∃ t, runInputs s (commandEvents (.ckInit :: seq.map .ckFeed)) = .next t ∧
      regRead .ckResult t = (crc8 s.crc seq ++ xor8 seq ++ twoc8 seq ++ sum8 seq : BitVec 32)

/-- R124, R125: the Bosch checksum is the `SUM8` field after feeding `LEN` and then `P`, and the Denso checksum the `TWOC8`
field after feeding `P`. -/
def Obligations.FrameChecksumsAreCkResultFields : Prop :=
  ∀ (s : State) (p : List Byte), p.length ≤ 255 →
    boschChk p = sum8 (BitVec.ofNat 8 p.length :: p) ∧
    boschChk p = BitVec.ofNat 8 ((sum8 p).toNat + p.length) ∧
    (∃ t, runInputs s (commandEvents (.ckInit :: .ckFeed (BitVec.ofNat 8 p.length) :: p.map .ckFeed)) = .next t ∧
      (regRead .ckResult t).extractLsb' 0 8 = boschChk p) ∧
    densoChk p = twoc8 p ∧
    (∃ t, runInputs s (commandEvents (.ckInit :: p.map .ckFeed)) = .next t ∧
      (regRead .ckResult t).extractLsb' 8 8 = densoChk p)

/-- R131: the six laws of the checksum functions. -/
def Obligations.ChecksumLaws : Prop :=
  (∀ a b : List Byte, sum8 (a ++ b) = BitVec.ofNat 8 (((sum8 a).toNat + (sum8 b).toNat) % 256) ∧
    xor8 (a ++ b) = xor8 a ^^^ xor8 b) ∧
  (∀ seq : List Byte, ((sum8 seq).toNat + (twoc8 seq).toNat) % 256 = 0 ∧ sum8 (seq ++ [twoc8 seq]) = 0#8) ∧
  (∀ seq : List Byte, xor8 (seq ++ [xor8 seq]) = 0#8) ∧
  (∀ (cfg : CrcCfg) (seq : List Byte), cfg.crcRefin = false → cfg.crcRefout = false → cfg.crcXorout = 0#8 →
    crc8 cfg (seq ++ [crc8 cfg seq]) = 0#8) ∧
  (∀ (cfg : CrcCfg) (a b : List Byte) (x y : Byte), x ≠ y →
    sum8 (a ++ x :: b) ≠ sum8 (a ++ y :: b) ∧ twoc8 (a ++ x :: b) ≠ twoc8 (a ++ y :: b) ∧
    xor8 (a ++ x :: b) ≠ xor8 (a ++ y :: b) ∧
    (cfg.crcPoly.getLsbD 0 = true → crc8 cfg (a ++ x :: b) ≠ crc8 cfg (a ++ y :: b))) ∧
  (∀ a b : List Byte, a.Perm b → sum8 a = sum8 b ∧ xor8 a = xor8 b) ∧
  (∃ (cfg : CrcCfg) (x y : Byte), x ≠ y ∧ crc8 cfg [x, y] ≠ crc8 cfg [y, x])

/-! ## The framer -/

/-- R151: `TX_CLR` empties the transmit buffer, in every state; the stored bytes stay. -/
def Obligations.TxClrEmptiesTheBuffer : Prop :=
  TakesNoOperand 0x20#8 .txClr ∧
  ∀ s : State, exec .txClr s = .next { s with tx := { s.tx with txLen := 0#8 } } ∧
    ∀ b : Byte, ∃ t, runInputs s (commandEvents [.txPush b, .txClr]) = .next t ∧ regRead .txLen t = 0#32

/-- R152: `TX_PUSH b` appends `b` to the payload; with 255 bytes already held it sets `errTxlen` and has no other effect. -/
def Obligations.TxPushAppendsOrRefuses : Prop :=
  TakesByte 0x21#8 .txPush ∧
  ∀ (b : Byte) (s : State),
    (s.tx.txLen = 255#8 → exec (.txPush b) s = .next { s with err := { s.err with errTxlen := true } }) ∧
    (s.tx.txLen ≠ 255#8 → Memory.wf 255 s.tx.txBuf = true →
      ∃ t, exec (.txPush b) s = .next t ∧ t = { s with tx := t.tx } ∧ t.tx.txLen.toNat = s.tx.txLen.toNat + 1 ∧
        StoredAt s.tx.txBuf t.tx.txBuf s.tx.txLen.toNat [b] ∧ t.txPayload = s.txPayload ++ [b])

/-- R153 to R156: a raw transmit appends the buffer's bytes alone to the serial history, and then `TX_RAW` changes nothing
more, `TX_RAW_B` arms the Bosch parser, `TX_RAW_D` the Denso parser and `TX_RAW_C n` a capture of `n` bytes. While `BUSY`
each sets `errHdx` only. -/
def Obligations.RawTransmitSendsTheBuffer : Prop :=
  TakesNoOperand 0x22#8 .txRaw ∧ TakesNoOperand 0x23#8 .txRawB ∧ TakesNoOperand 0x24#8 .txRawD ∧
  TakesCount 0x25#8 .txRawC ∧
  ∀ s : State,
    (s.rx.rxSt = .busy → ∀ i : Instr, i ∈ [.txRaw, .txRawB, .txRawD] ∨ (∃ n : Byte, n ≠ 0#8 ∧ i = .txRawC n) →
      exec i s = .next { s with err := { s.err with errHdx := true } }) ∧
    (s.rx.rxSt ≠ .busy →
      exec .txRaw s = .next { s with serialOut := s.serialOut ++ s.txPayload } ∧
      exec .txRawB s = .next { s with serialOut := s.serialOut ++ s.txPayload, rx := rxArm .bosch .bLen 0#12 s.rx } ∧
      exec .txRawD s = .next { s with serialOut := s.serialOut ++ s.txPayload, rx := rxArm .denso .dHunt 0#12 s.rx } ∧
      ∀ n : Byte, n ≠ 0#8 → exec (.txRawC n) s =
        .next { s with serialOut := s.serialOut ++ s.txPayload, rx := rxArm .raw .rCap (n.setWidth 12) s.rx })

/-- R157: `TX_BOSCH` sends `LEN`, the payload and the Bosch checksum, and arms the Bosch parser; half-duplex is checked
before the length. -/
def Obligations.TxBoschSendsABoschFrame : Prop :=
  TakesNoOperand 0x28#8 .txBosch ∧
  ∀ s : State,
    (s.rx.rxSt = .busy → exec .txBosch s = .next { s with err := { s.err with errHdx := true } }) ∧
    (s.rx.rxSt ≠ .busy → s.tx.txLen = 0#8 → exec .txBosch s = .next { s with err := { s.err with errTxlen := true } }) ∧
    (s.rx.rxSt ≠ .busy → s.tx.txLen ≠ 0#8 → exec .txBosch s =
      .next { s with
        serialOut := s.serialOut ++ ([s.tx.txLen] ++ s.txPayload ++ [sum8 (s.tx.txLen :: s.txPayload)])
        rx := rxArm .bosch .bLen 0#12 s.rx })

/-- R158: `TX_DENSO` sends `STX`, `LEN`, the payload unescaped, the Denso checksum and `ETX`, and arms the Denso parser; no
length is refused. -/
def Obligations.TxDensoSendsADensoFrame : Prop :=
  TakesNoOperand 0x29#8 .txDenso ∧
  ∀ s : State,
    (s.rx.rxSt = .busy → exec .txDenso s = .next { s with err := { s.err with errHdx := true } }) ∧
    (s.rx.rxSt ≠ .busy → exec .txDenso s =
      .next { s with
        serialOut := s.serialOut ++ ([0x02#8, s.tx.txLen] ++ s.txPayload ++ [twoc8 s.txPayload, 0x03#8])
        rx := rxArm .denso .dHunt 0#12 s.rx })

/-- R159: `TX_ISOTP_SF` sends one CAN frame on `reqId` with `dlc` 8, the length, the payload and zero padding, and arms the
reassembler; a length of 0 or above 7 is refused. -/
def Obligations.TxIsotpSfSendsASingleFrame : Prop :=
  TakesNoOperand 0x2A#8 .txIsotpSf ∧
  ∀ s : State,
    (s.rx.rxSt = .busy → exec .txIsotpSf s = .next { s with err := { s.err with errHdx := true } }) ∧
    (s.rx.rxSt ≠ .busy → s.tx.txLen.toNat = 0 ∨ 7 < s.tx.txLen.toNat →
      exec .txIsotpSf s = .next { s with err := { s.err with errTxlen := true } }) ∧
    (s.rx.rxSt ≠ .busy → 1 ≤ s.tx.txLen.toNat → s.tx.txLen.toNat ≤ 7 →
      ∃ f : CanFrame, f.id = s.can.reqId ∧ f.dlc.val = 8 ∧
        f.bytes = [s.tx.txLen] ++ s.txPayload ++ List.replicate (7 - s.tx.txLen.toNat) 0x00#8 ∧
        exec .txIsotpSf s = .next { s with canOut := s.canOut ++ [f], rx := rxArm .isotp .iFirst 0#12 s.rx })

/-- R294, R295: the eleven transmit and arm commands written while `BUSY` set `errHdx` and do nothing else; the three
length violations set `errTxlen` and do nothing else. -/
def Obligations.RefusedCommandsSetOneFlagOnly : Prop :=
  (∀ (s : State) (i : Instr), s.rx.rxSt = .busy →
    i ∈ [.txRaw, .txRawB, .txRawD, .txBosch, .txDenso, .txIsotpSf, .rxArmB, .rxArmD, .rxArmI] ∨
      (∃ n : Byte, n ≠ 0#8 ∧ (i = .txRawC n ∨ i = .rxCap n)) →
    exec i s = .next { s with err := { s.err with errHdx := true } }) ∧
  (∀ (s : State) (i : Instr),
    ((∃ b : Byte, i = .txPush b) ∧ s.tx.txLen = 255#8) ∨
    (i = .txBosch ∧ s.rx.rxSt ≠ .busy ∧ s.tx.txLen = 0#8) ∨
    (i = .txIsotpSf ∧ s.rx.rxSt ≠ .busy ∧ (s.tx.txLen = 0#8 ∨ 7#8 < s.tx.txLen)) →
    exec i s = .next { s with err := { s.err with errTxlen := true } })

/-! ## The receiver: arming, completion, cancel, timeout -/

/-- R182, R183: what `Arm` and `Complete` write; neither changes `rxBuf`, and only `OK` commits a length. -/
def Obligations.ArmAndCompleteWriteTheReceiver : Prop :=
  (∀ (fam : RxFam) (phase : RxPhase) (e : BitVec 12) (r : RxUnit), rxArm fam phase e r =
    { rxSt := .busy, rxFam := fam, rxPhase := phase, rxBuf := r.rxBuf, rxExp := e, rxIdx := 0#12, rxSum := 0#8,
      rxSn := 0#4, rxCommit := 0#12, chkRx := 0#8, chkCalc := 0#8, chkSeen := false, chkMatch := false }) ∧
  (∀ (code : RxSt) (r : RxUnit), rxComplete code r =
    { r with rxSt := code, rxPhase := .none, rxCommit := if code = .ok then r.rxExp else 0#12 })

/-- R181, R184, R185, R186, R231: an arming command starts a receive unless one is in progress, when it sets `errHdx`
only. -/
def Obligations.ArmingCommandsStartAReceive : Prop :=
  TakesNoOperand 0x30#8 .rxArmB ∧ TakesNoOperand 0x31#8 .rxArmD ∧ TakesNoOperand 0x32#8 .rxArmI ∧
  TakesCount 0x33#8 .rxCap ∧
  ∀ s : State,
    (s.rx.rxSt = .busy → ∀ i : Instr, i ∈ [.rxArmB, .rxArmD, .rxArmI] ∨ (∃ n : Byte, n ≠ 0#8 ∧ i = .rxCap n) →
      exec i s = .next { s with err := { s.err with errHdx := true } }) ∧
    (s.rx.rxSt ≠ .busy →
      exec .rxArmB s = .next { s with rx := rxArm .bosch .bLen 0#12 s.rx } ∧
      exec .rxArmD s = .next { s with rx := rxArm .denso .dHunt 0#12 s.rx } ∧
      exec .rxArmI s = .next { s with rx := rxArm .isotp .iFirst 0#12 s.rx } ∧
      ∀ n : Byte, n ≠ 0#8 → exec (.rxCap n) s = .next { s with rx := rxArm .raw .rCap (n.setWidth 12) s.rx })

/-- R187: `RX_CANCEL` completes a `BUSY` receive with `CANCELLED` and is a no-op otherwise. -/
def Obligations.RxCancelEndsABusyReceive : Prop :=
  TakesNoOperand 0x3F#8 .rxCancel ∧
  ∀ s : State,
    (s.rx.rxSt = .busy → exec .rxCancel s =
      .next { s with rx := { s.rx with rxSt := .cancelled, rxPhase := .none, rxCommit := 0#12 } }) ∧
    (s.rx.rxSt ≠ .busy → exec .rxCancel s = .next s)

/-- R207: a timeout ends a `BUSY` receive, with `TIMEOUT` before the frame has started and `SHORT` after; it has no effect
when not `BUSY`. -/
def Obligations.TimeoutEndsABusyReceive : Prop :=
  ∀ s : State,
    (s.rx.rxSt = .busy →
      (s.rx.rxPhase ∈ [.bLen, .dHunt, .iFirst] ∨ (s.rx.rxPhase = .rCap ∧ s.rx.rxIdx = 0#12)) →
      onInput s .timer = .next { s with rx := { s.rx with rxSt := .timeout, rxPhase := .none, rxCommit := 0#12 } }) ∧
    (s.rx.rxSt = .busy →
      ¬ (s.rx.rxPhase ∈ [.bLen, .dHunt, .iFirst] ∨ (s.rx.rxPhase = .rCap ∧ s.rx.rxIdx = 0#12)) →
      onInput s .timer = .next { s with rx := { s.rx with rxSt := .short, rxPhase := .none, rxCommit := 0#12 } }) ∧
    (s.rx.rxSt ≠ .busy → onInput s .timer = .next s)

/-! ## Serial input -/

/-- R206, R233: input that arrives while the receiver is not armed for it sets `errStray` and is dropped. -/
def Obligations.StrayInputIsDropped : Prop :=
  ∀ s : State,
    (∀ b : Byte, s.rx.rxSt ≠ .busy ∨ s.rx.rxFam = .isotp →
      onInput s (.serialRx b) = .next { s with err := { s.err with errStray := true } }) ∧
    (∀ f : CanFrame, f.id = s.can.respId → s.rx.rxSt ≠ .busy ∨ s.rx.rxFam ∈ [.bosch, .denso, .raw] →
      onInput s (.canRx f) = .next { s with err := { s.err with errStray := true } })

/-- R189, R190, R191: what a serial byte does in each Bosch phase. -/
def Obligations.BoschReceiveByPhase : Prop :=
  ∀ (s : State) (b : Byte), Inv s →
    (s.rx.rxPhase = .bLen →
      (b = 0#8 → onInput s (.serialRx b) = .next { s with rx := rxComplete .empty s.rx }) ∧
      (b ≠ 0#8 → onInput s (.serialRx b) =
        .next { s with rx := { s.rx with rxExp := b.setWidth 12, rxSum := b, rxPhase := .bBody } })) ∧
    (s.rx.rxPhase = .bBody → ∃ m, StoredAt s.rx.rxBuf m s.rx.rxIdx.toNat [b] ∧
      onInput s (.serialRx b) = .next { s with rx := { s.rx with
        rxBuf := m, rxIdx := s.rx.rxIdx + 1#12, rxSum := s.rx.rxSum + b,
        rxPhase := if s.rx.rxIdx.toNat + 1 = s.rx.rxExp.toNat then .bChk else .bBody } }) ∧
    (s.rx.rxPhase = .bChk → onInput s (.serialRx b) =
      .next { s with rx := rxComplete (if b = s.rx.rxSum then .ok else .chkErr) { s.rx with
        chkRx := b, chkCalc := s.rx.rxSum, chkSeen := true, chkMatch := decide (b = s.rx.rxSum) } })

/-- R192 to R196: what a serial byte does in each Denso phase. -/
def Obligations.DensoReceiveByPhase : Prop :=
  ∀ (s : State) (b : Byte), Inv s →
    (s.rx.rxPhase = .dHunt →
      (b = 0x02#8 → onInput s (.serialRx b) = .next { s with rx := { s.rx with rxPhase := .dLen } }) ∧
      (b ≠ 0x02#8 → onInput s (.serialRx b) = .next s)) ∧
    (s.rx.rxPhase = .dLen → onInput s (.serialRx b) =
      .next { s with rx := { s.rx with
        rxExp := b.setWidth 12, rxSum := 0#8, rxPhase := if b = 0#8 then .dChk else .dBody } }) ∧
    (s.rx.rxPhase = .dBody → ∃ m, StoredAt s.rx.rxBuf m s.rx.rxIdx.toNat [b] ∧
      onInput s (.serialRx b) = .next { s with rx := { s.rx with
        rxBuf := m, rxIdx := s.rx.rxIdx + 1#12, rxSum := s.rx.rxSum + b,
        rxPhase := if s.rx.rxIdx.toNat + 1 = s.rx.rxExp.toNat then .dChk else .dBody } }) ∧
    (s.rx.rxPhase = .dChk → onInput s (.serialRx b) =
      .next { s with rx := { s.rx with
        chkRx := b, chkCalc := BitVec.ofNat 8 ((256 - s.rx.rxSum.toNat) % 256), chkSeen := true,
        chkMatch := decide (b = BitVec.ofNat 8 ((256 - s.rx.rxSum.toNat) % 256)), rxPhase := .dEtx } }) ∧
    (s.rx.rxPhase = .dEtx → onInput s (.serialRx b) =
      .next { s with
        rx := rxComplete (if b ≠ 0x03#8 then .frameErr else if s.rx.chkMatch = false then .chkErr else .ok) s.rx })

/-- R197: raw capture stores each byte unchanged and completes `OK` at the last one. -/
def Obligations.RawCaptureStoresBytes : Prop :=
  ∀ (s : State) (b : Byte), Inv s → s.rx.rxPhase = .rCap →
    ∃ m, StoredAt s.rx.rxBuf m s.rx.rxIdx.toNat [b] ∧
      (s.rx.rxIdx.toNat + 1 = s.rx.rxExp.toNat → onInput s (.serialRx b) =
        .next { s with rx := rxComplete .ok { s.rx with rxBuf := m, rxIdx := s.rx.rxIdx + 1#12 } }) ∧
      (s.rx.rxIdx.toNat + 1 ≠ s.rx.rxExp.toNat → onInput s (.serialRx b) =
        .next { s with rx := { s.rx with rxBuf := m, rxIdx := s.rx.rxIdx + 1#12 } })

/-! ## CAN input -/

/-- R232, R237, R238, R240 to R243: which CAN frames are ignored, and which end the receive with `FRAMEERR`. -/
def Obligations.CanFramesIgnoredOrMalformed : Prop :=
  ∀ (s : State) (f : CanFrame),
    (f.id ≠ s.can.respId → onInput s (.canRx f) = .next s) ∧
    (Inv s → f.id = s.can.respId → s.rx.rxPhase ∈ [.iFirst, .iCf] → f.dlc.val = 0 →
      onInput s (.canRx f) = .next { s with rx := rxComplete .frameErr s.rx }) ∧
    (Inv s → f.id = s.can.respId → s.rx.rxPhase = .iFirst → f.dlc.val ≠ 0 →
      f.d0.toNat / 16 = 2 ∨ f.d0.toNat / 16 = 3 → onInput s (.canRx f) = .next s) ∧
    (Inv s → f.id = s.can.respId → s.rx.rxPhase = .iFirst → f.dlc.val ≠ 0 → 4 ≤ f.d0.toNat / 16 →
      onInput s (.canRx f) = .next { s with rx := rxComplete .frameErr s.rx }) ∧
    (Inv s → f.id = s.can.respId → s.rx.rxPhase = .iCf → f.dlc.val ≠ 0 → f.d0.toNat / 16 = 3 →
      onInput s (.canRx f) = .next s) ∧
    (Inv s → f.id = s.can.respId → s.rx.rxPhase = .iCf → f.dlc.val ≠ 0 →
      f.d0.toNat / 16 = 0 ∨ f.d0.toNat / 16 = 1 ∨ 4 ≤ f.d0.toNat / 16 →
      onInput s (.canRx f) = .next { s with rx := rxComplete .frameErr s.rx })

/-- R234: a single frame in `I_FIRST`. -/
def Obligations.SingleFrameInFirstPhase : Prop :=
  ∀ (s : State) (f : CanFrame), Inv s → f.id = s.can.respId → f.dlc.val ≠ 0 → s.rx.rxPhase = .iFirst →
    f.d0.toNat / 16 = 0 →
    (f.d0.toNat % 16 = 0 ∨ 7 < f.d0.toNat % 16 ∨ f.dlc.val < 1 + f.d0.toNat % 16 →
      onInput s (.canRx f) = .next { s with rx := rxComplete .frameErr s.rx }) ∧
    (1 ≤ f.d0.toNat % 16 → f.d0.toNat % 16 ≤ 7 → 1 + f.d0.toNat % 16 ≤ f.dlc.val →
      ∃ m, StoredAt s.rx.rxBuf m 0 ((f.bytes.drop 1).take (f.d0.toNat % 16)) ∧
        onInput s (.canRx f) = .next { s with rx := rxComplete .ok { s.rx with
          rxBuf := m, rxExp := BitVec.ofNat 12 (f.d0.toNat % 16), rxIdx := BitVec.ofNat 12 (f.d0.toNat % 16) } })

/-- R235, R236: a first frame in `I_FIRST`: it must be full and declare at least 8 bytes; it stores 6 bytes, expects
sequence number 1, and one flow-control frame goes out on `reqId` in the same step. -/
def Obligations.FirstFrameSendsFlowControl : Prop :=
  ∀ (s : State) (f : CanFrame), Inv s → f.id = s.can.respId → f.dlc.val ≠ 0 → s.rx.rxPhase = .iFirst →
    f.d0.toNat / 16 = 1 →
    (f.dlc.val ≠ 8 ∨ (f.d0.toNat % 16) * 256 + f.d1.toNat < 8 →
      onInput s (.canRx f) = .next { s with rx := rxComplete .frameErr s.rx }) ∧
    (f.dlc.val = 8 → 8 ≤ (f.d0.toNat % 16) * 256 + f.d1.toNat →
      ∃ m fc, StoredAt s.rx.rxBuf m 0 [f.d2, f.d3, f.d4, f.d5, f.d6, f.d7] ∧
        fc.id = s.can.reqId ∧ fc.dlc.val = 8 ∧ fc.bytes = [0x30#8, 0#8, 0#8, 0#8, 0#8, 0#8, 0#8, 0#8] ∧
        onInput s (.canRx f) = .next { s with
          rx := { s.rx with rxBuf := m, rxExp := BitVec.ofNat 12 ((f.d0.toNat % 16) * 256 + f.d1.toNat),
                            rxIdx := 6#12, rxSn := 1#4, rxPhase := .iCf }
          canOut := s.canOut ++ [fc] })

/-- R239: a consecutive frame in `I_CF`: a wrong sequence number gives `SEQERR`, too few bytes `FRAMEERR`; else the bytes
still owed, at most 7, are stored and the receive completes `OK` when none is owed any more. -/
def Obligations.ConsecutiveFrameInCfPhase : Prop :=
  ∀ (s : State) (f : CanFrame), Inv s → f.id = s.can.respId → f.dlc.val ≠ 0 → s.rx.rxPhase = .iCf →
    f.d0.toNat / 16 = 2 →
    (f.d0.toNat % 16 ≠ s.rx.rxSn.toNat →
      onInput s (.canRx f) = .next { s with rx := rxComplete .seqErr s.rx }) ∧
    (f.d0.toNat % 16 = s.rx.rxSn.toNat →
      f.dlc.val < 1 + min 7 (s.rx.rxExp.toNat - s.rx.rxIdx.toNat) →
      onInput s (.canRx f) = .next { s with rx := rxComplete .frameErr s.rx }) ∧
    (f.d0.toNat % 16 = s.rx.rxSn.toNat →
      1 + min 7 (s.rx.rxExp.toNat - s.rx.rxIdx.toNat) ≤ f.dlc.val →
      ∃ m r, StoredAt s.rx.rxBuf m s.rx.rxIdx.toNat
          ((f.bytes.drop 1).take (min 7 (s.rx.rxExp.toNat - s.rx.rxIdx.toNat))) ∧
        r = { s.rx with
          rxBuf := m, rxSn := BitVec.ofNat 4 ((s.rx.rxSn.toNat + 1) % 16),
          rxIdx := BitVec.ofNat 12 (s.rx.rxIdx.toNat + min 7 (s.rx.rxExp.toNat - s.rx.rxIdx.toNat)) } ∧
        onInput s (.canRx f) = .next { s with rx := if r.rxIdx = r.rxExp then rxComplete .ok r else r })

/-! ## Whole receives -/

/-- R160, Bosch: the bytes of `EncBosch(P)` delivered to a receiver armed with `RX_ARM_B` complete it `OK` with payload
`P`. -/
def Obligations.BoschRoundTrip : Prop :=
  ∀ (s : State) (p : List Byte), Idle s → Memory.wf Config.rxBufSize s.rx.rxBuf = true →
    1 ≤ p.length → p.length ≤ 255 →
    ∃ t, runInputs s (commandEvents [.rxArmB] ++ serialEvents (encBosch p)) = .next t ∧
      t.rx.rxSt = .ok ∧ t.rxPayload = p ∧ t.err = s.err

/-- R160, Denso: the same for `EncDenso(P)` and `RX_ARM_D`, the empty payload included. -/
def Obligations.DensoRoundTrip : Prop :=
  ∀ (s : State) (p : List Byte), Idle s → Memory.wf Config.rxBufSize s.rx.rxBuf = true → p.length ≤ 255 →
    ∃ t, runInputs s (commandEvents [.rxArmD] ++ serialEvents (encDenso p)) = .next t ∧
      t.rx.rxSt = .ok ∧ t.rxPayload = p ∧ t.err = s.err

/-- R160, ISO-TP: a frame on `respId` with the data bytes of `EncSF(P)` completes a receiver armed for ISO-TP with payload
`P`. -/
def Obligations.SingleFrameRoundTrip : Prop :=
  ∀ (s : State) (p : List Byte), Idle s → Memory.wf Config.rxBufSize s.rx.rxBuf = true →
    1 ≤ p.length → p.length ≤ 7 →
    ∃ t, runInputs s (commandEvents [.rxArmI] ++ canEvents [encSF s.can.respId p]) = .next t ∧
      t.rx.rxSt = .ok ∧ t.rxPayload = p ∧ t.err = s.err ∧ t.canOut = s.canOut

/-- R209, Bosch: arming, a byte list and one timeout leave what `DecBosch` computes; the bytes beyond the consumed count are
stray. -/
def Obligations.BoschParserIsDecBosch : Prop :=
  ∀ (s : State) (xs : List Byte), Idle s → Memory.wf Config.rxBufSize s.rx.rxBuf = true →
    ∃ t, runInputs s (commandEvents [.rxArmB] ++ serialEvents xs ++ [.timer]) = .next t ∧
      t.decoding = decBosch xs ∧ t.err.errStray = (s.err.errStray || decide (consumedBosch xs < xs.length))

/-- R209, Denso: the same for `RX_ARM_D` and `DecDenso`. -/
def Obligations.DensoParserIsDecDenso : Prop :=
  ∀ (s : State) (xs : List Byte), Idle s → Memory.wf Config.rxBufSize s.rx.rxBuf = true →
    ∃ t, runInputs s (commandEvents [.rxArmD] ++ serialEvents xs ++ [.timer]) = .next t ∧
      t.decoding = decDenso xs ∧ t.err.errStray = (s.err.errStray || decide (consumedDenso xs < xs.length))

/-- R210: which single-byte changes of an encoded frame are rejected, and how; and the frames of the rule's examples that
are accepted with a changed `LEN` or `STX`. -/
def Obligations.SingleByteChangesOfAFrame : Prop :=
  ∀ s : State, Idle s → Memory.wf Config.rxBufSize s.rx.rxBuf = true →
    (∀ (p : List Byte) (b : Byte) (k : Nat), 1 ≤ p.length → p.length ≤ 255 → 1 ≤ k → k ≤ p.length + 1 →
      (encBosch p).getD k 0#8 ≠ b → EndsWith s .rxArmB ((encBosch p).set k b) .chkErr []) ∧
    (∀ (p : List Byte) (b : Byte) (k : Nat), p.length ≤ 255 → 2 ≤ k → k ≤ p.length + 2 →
      (encDenso p).getD k 0#8 ≠ b → EndsWith s .rxArmD ((encDenso p).set k b) .chkErr []) ∧
    (∀ (p : List Byte) (b : Byte), p.length ≤ 255 → b ≠ 0x03#8 →
      EndsWith s .rxArmD ((encDenso p).set (p.length + 3) b) .frameErr []) ∧
    (∀ (p : List Byte) (b : Byte), 1 ≤ p.length → p.length < b.toNat →
      EndsWith s .rxArmB ((encBosch p).set 0 b) .short []) ∧
    (∀ (p : List Byte) (b : Byte), p.length < b.toNat → EndsWith s .rxArmD ((encDenso p).set 1 b) .short []) ∧
    (∀ p : List Byte, 1 ≤ p.length → p.length ≤ 255 → EndsWith s .rxArmB ((encBosch p).set 0 0#8) .empty []) ∧
    (EndsWith s .rxArmB ((encBosch [0x10#8, 0x11#8]).set 0 0x01#8) .ok [0x10#8]) ∧
    (EndsWith s .rxArmD ((encDenso [0x10#8, 0xF0#8, 0x03#8]).set 1 0x01#8) .ok [0x10#8]) ∧
    (∀ (p : List Byte) (b : Byte), p.length ≤ 255 → b ≠ 0x02#8 → 0x02#8 ∉ (encDenso p).tail →
      EndsWith s .rxArmD ((encDenso p).set 0 b) .timeout []) ∧
    (EndsWith s .rxArmD ((encDenso [0xFE#8, 0x02#8, 0x00#8]).set 0 0x00#8) .ok [])

/-- R245: the frames of a message of 1 to 4095 bytes, delivered after `RX_ARM_I`, leave the message in `RXBUF` with `OK`,
after one first frame and `ceil((TL - 6) / 7)` consecutive frames, and with exactly one flow-control frame for 8 or
more bytes. The filling of the frames is the model's choice (entry 18, DESIGN CHOICE): any byte `pad`. -/
def Obligations.IsotpMessageIsReassembled : Prop :=
  ∀ (s : State) (pad : Byte) (m : List Byte), Idle s → Memory.wf Config.rxBufSize s.rx.rxBuf = true →
    1 ≤ m.length → m.length ≤ 4095 →
    (messageFrames s.can.respId pad m).length =
      (if m.length ≤ 7 then 1 else 1 + (m.length - 6 + 6) / 7) ∧
    ∃ t, runInputs s (commandEvents [.rxArmI] ++ canEvents (messageFrames s.can.respId pad m)) = .next t ∧
      t.rx.rxSt = .ok ∧ t.rxPayload = m ∧
      t.canOut = s.canOut ++ (if m.length ≤ 7 then [] else [flowControl s.can.reqId])

/-! ## The host port -/

/-- R60, R70: a read of a mapped register returns its value in the state before the step and has no other effect. -/
def Obligations.HostReadReturnsTheRegister : Prop :=
  ∀ (s : State) (r : HostReg),
    onInput s (.hostRead (regOffset r) 32) = .next { s with hostReads := s.hostReads ++ [regRead r s] } ∧
    ∀ r' : HostReg, regRead r' { s with hostReads := s.hostReads ++ [regRead r s] } = regRead r' s

/-- R41 to R50: the fields each register shows, bit by bit. -/
def Obligations.RegistersShowTheirFields : Prop :=
  ∀ s : State,
    (regRead .status s).toNat = (rxStCode s.rx.rxSt).toNat + 16 * (rxFamCode s.rx.rxFam).toNat +
      256 * (rxPhaseCode s.rx.rxPhase).toNat + 4096 * s.err.errIll.toNat + 8192 * s.err.errHdx.toNat +
      16384 * s.err.errTxlen.toNat + 32768 * s.err.errStray.toNat ∧
    (regRead .ckResult s).toNat = s.ck.ckSum.toNat + 256 * ((256 - s.ck.ckSum.toNat) % 256) +
      65536 * s.ck.ckXor.toNat +
      16777216 * ((if s.crc.crcRefout then reflect8 s.ck.ckCrc else s.ck.ckCrc) ^^^ s.crc.crcXorout).toNat ∧
    (regRead .crcCfg s).toNat = s.crc.crcPoly.toNat + 256 * s.crc.crcInit.toNat + 65536 * s.crc.crcXorout.toNat +
      16777216 * s.crc.crcRefin.toNat + 33554432 * s.crc.crcRefout.toNat ∧
    (regRead .canId s).toNat = s.can.reqId.toNat + 65536 * s.can.respId.toNat ∧
    (regRead .txLen s).toNat = s.tx.txLen.toNat ∧
    (regRead .rxLen s).toNat = s.rx.rxCommit.toNat ∧
    (regRead .rxInfo s).toNat = (if 1 ≤ s.rx.rxCommit.toNat then Memory.read s.rx.rxBuf 0 else 0#8).toNat +
      256 * s.rx.chkRx.toNat + 65536 * s.rx.chkCalc.toNat + 16777216 * s.rx.chkSeen.toNat +
      33554432 * s.rx.chkMatch.toNat ∧
    (regRead .rxPtr s).toNat = s.rxPtr.toNat ∧
    (regRead .rxData s).toNat =
      (if s.rxPtr.toNat < s.rx.rxCommit.toNat then Memory.read s.rx.rxBuf s.rxPtr.toNat else 0#8).toNat ∧
    (regRead .rxProg s).toNat = s.rx.rxIdx.toNat + 65536 * s.rx.rxExp.toNat + 268435456 * s.rx.rxSn.toNat

/-- R43, R44, R48, R51: a write to a read-write register stores its fields and reads back with the reserved bits 0; a write
to a read-only register is ignored. -/
def Obligations.RegisterWritesStoreTheirFields : Prop :=
  ∀ (s : State) (v : Word),
    (∃ c, onInput s (.hostWrite 0x0C#8 32 v) = .next { s with crc := c } ∧
      regRead .crcCfg { s with crc := c } = v &&& 0x03FFFFFF#32) ∧
    (∃ c, onInput s (.hostWrite 0x10#8 32 v) = .next { s with can := c } ∧
      regRead .canId { s with can := c } = v &&& 0x07FF07FF#32) ∧
    (∃ c, onInput s (.hostWrite 0x20#8 32 v) = .next { s with rxPtr := c } ∧
      regRead .rxPtr { s with rxPtr := c } = v &&& 0x00000FFF#32) ∧
    ∀ r ∈ [HostReg.status, .ckResult, .txLen, .rxLen, .rxInfo, .rxData, .rxProg],
      onInput s (.hostWrite (regOffset r) 32 v) = .next s

/-- R66, R63: a host access faults with `BusError` exactly when its offset is unmapped, not a multiple of 4, or its width is
not 32 bits. -/
def Obligations.BusErrorExactlyOnBadAccesses : Prop :=
  ∀ (s : State) (off : BitVec 8) (bits : Nat) (v : Word),
    (onInput s (.hostRead off bits) = .fault .busError ↔ bits ≠ 32 ∨ off.toNat % 4 ≠ 0 ∨ 0x28 < off.toNat) ∧
    (onInput s (.hostWrite off bits v) = .fault .busError ↔ bits ≠ 32 ∨ off.toNat % 4 ≠ 0 ∨ 0x28 < off.toNat)

/-! ## Invariants and rules of the whole machine -/

/-- Every command answers a next state, in every state and with every operand. -/
def Obligations.EveryCommandCompletes : Prop :=
  ∀ (i : Instr) (s : State), ∃ t, exec i s = .next t ∧ t.inputs = s.inputs ∧ t.hostReads = s.hostReads ∧
    t.rxPtr = if i = .srst then 0#12 else s.rxPtr

/-- The state after reset satisfies the invariant. -/
def Obligations.ResetSatisfiesTheInvariant : Prop := Inv State.reset

/-- Every step from a state that satisfies the invariant leads to one that does. -/
def Obligations.EveryStepKeepsTheInvariant : Prop :=
  ∀ s t : State, Inv s → step s = .next t → Inv t

/-- R54: whatever the inputs, every state reached from reset satisfies the seven items of the rule. -/
def Obligations.ReachableStatesSatisfyTheRule54Items : Prop :=
  ∀ (es : List Event) (k : Nat) (t : State),
    Sys2Proof.core.run k (State.reset.setInputs es) = .next t →
    t.tx.txLen.toNat ≤ 255 ∧
    (t.rx.rxIdx.toNat ≤ 4095 ∧ t.rx.rxExp.toNat ≤ 4095 ∧ t.rx.rxCommit.toNat ≤ 4095) ∧
    (t.rx.rxPhase = .none ↔ t.rx.rxSt ≠ .busy) ∧
    (t.rx.rxCommit ≠ 0#12 → t.rx.rxSt = .ok) ∧
    (t.rx.rxSt = .ok → t.rx.rxCommit = t.rx.rxExp ∧ t.rx.rxExp = t.rx.rxIdx) ∧
    (t.rx.rxSt = .busy → t.rx.rxPhase ∈ [.bBody, .bChk, .dBody, .dChk, .dEtx, .iCf, .rCap] →
      t.rx.rxIdx ≤ t.rx.rxExp) ∧
    (t.rx.rxFam = .none → t.rx.rxSt = .idle)

/-- From a state that satisfies the invariant a step never is refused, and stops only with `BusError` on a bad host
access. -/
def Obligations.OnlyABadHostAccessStopsAStep : Prop :=
  ∀ s : State, Inv s →
    (∀ r, step s ≠ .refused r) ∧
    (∀ f, step s = .fault f → f = .busError ∧
      ∃ off bits rest, (s.inputs = .hostRead off bits :: rest ∨ ∃ v, s.inputs = .hostWrite off bits v :: rest) ∧
        (bits ≠ 32 ∨ off.toNat % 4 ≠ 0 ∨ 0x28 < off.toNat))

/-- R38: a step only appends to the transmit histories. -/
def Obligations.TransmitHistoriesOnlyGrow : Prop :=
  ∀ s t : State, step s = .next t → s.serialOut <+: t.serialOut ∧ s.canOut <+: t.canOut

/-- R37: only `CLR_ERR` and reset clear a sticky flag. -/
def Obligations.StickyFlagsClearedOnlyByClrErrAndReset : Prop :=
  ∀ (s t : State) (e : Event), onInput s e = .next t →
    (s.err.errIll = true ∧ t.err.errIll = false) ∨ (s.err.errHdx = true ∧ t.err.errHdx = false) ∨
      (s.err.errTxlen = true ∧ t.err.errTxlen = false) ∨ (s.err.errStray = true ∧ t.err.errStray = false) →
    IsCommand e .clrErr ∨ IsCommand e .srst ∨ e = .reset

/-- R23, R24, R35, R36: the accumulators change only by `CK_*` commands and reset; the CRC configuration, the identifiers
and `rxPtr` only by a host write to their register and reset. -/
def Obligations.WhoMayWriteTheHostOwnedFields : Prop :=
  ∀ (s t : State) (e : Event), onInput s e = .next t → ¬ IsCommand e .srst → e ≠ .reset →
    (t.ck ≠ s.ck → IsCommand e .ckInit ∨ (∃ b, IsCommand e (.ckFeed b)) ∨ IsCommand e .ckFeedTx ∨
      IsCommand e .ckFeedRx) ∧
    (t.crc ≠ s.crc → ∃ v, e = .hostWrite 0x0C#8 32 v) ∧
    (t.can ≠ s.can → ∃ v, e = .hostWrite 0x10#8 32 v) ∧
    (t.rxPtr ≠ s.rxPtr → ∃ v, e = .hostWrite 0x20#8 32 v)

/-- R331, R208: a `BUSY` receive ends only by a serial byte, a frame on `respId`, a timeout, `RX_CANCEL` or reset; and a
receive that is not `BUSY` is changed only by an arming or transmit command or reset. -/
def Obligations.WhatEndsAndWhatStartsAReceive : Prop :=
  ∀ (s t : State) (e : Event), onInput s e = .next t →
    (s.rx.rxSt = .busy → t.rx.rxSt ≠ .busy →
      (∃ b, e = .serialRx b) ∨ (∃ f, e = .canRx f ∧ f.id = s.can.respId) ∨ e = .timer ∨
        IsCommand e .rxCancel ∨ IsCommand e .srst ∨ e = .reset) ∧
    (s.rx.rxSt ≠ .busy → t.rx ≠ s.rx →
      (∃ i, IsCommand e i ∧ (i ∈ [.txRawB, .txRawD, .txBosch, .txDenso, .txIsotpSf, .rxArmB, .rxArmD, .rxArmI] ∨
        ∃ n : Byte, i = .txRawC n ∨ i = .rxCap n)) ∨ IsCommand e .srst ∨ e = .reset)

/-- R30, and R3's acceptance rule: unless the last receive completed `OK` no payload byte is readable, and a Bosch or Denso
payload is readable only if its checksum byte matched. -/
def Obligations.OnlyValidatedPayloadIsReadable : Prop :=
  ∀ s : State, Inv s →
    (s.rx.rxSt ≠ .ok → regRead .rxLen s = 0#32 ∧ regRead .rxData s = 0#32 ∧ s.rxPayload = []) ∧
    (s.rxPayload ≠ [] → s.rx.rxSt = .ok ∧ s.rxPayload.length = s.rx.rxExp.toNat ∧
      (s.rx.rxFam ∈ [.bosch, .denso] → s.rx.chkRx = s.rx.chkCalc))

/-- R25, R26: the buffer bytes no receive or push has stored are never observed: two states that differ in such bytes only
go on alike, with equal outputs. So the model's value for an unwritten byte (entry 5) shows nowhere. -/
def Obligations.UnwrittenBufferBytesAreNeverObserved : Prop :=
  ∀ s t s' : State, Inv s → Inv t → SameVisible s t → step s = .next s' →
    ∃ t', step t = .next t' ∧ SameVisible s' t'

/-- R62: CAN data bytes at or beyond `dlc` are never read. -/
def Obligations.CanBytesBeyondDlcAreNeverRead : Prop :=
  ∀ (s : State) (f g : CanFrame), SameFrame f g → onInput s (.canRx f) = onInput s (.canRx g)

/-- R105: `TX_LOAD b0, ..., bk` leaves exactly its bytes as the transmit payload. -/
def Obligations.TxLoadLoadsThePayload : Prop :=
  ∀ (s : State) (bs : List Byte), Memory.wf Config.txBufSize s.tx.txBuf = true → bs ≠ [] → bs.length ≤ 255 →
    ∃ es t, assemble [.txLoad bs] = some es ∧ runInputs s es = .next t ∧ t.txPayload = bs ∧ t.err = s.err
end

