-- ==== Sys2Proof/Laws/Memory.lean ====
section
/-! SUPPORT. The laws of the buffers: every operation keeps the canonical form, and a read after a write. -/

namespace Sys2Proof.Machine

theorem wfFrom_mono {lo lo' : Nat} (h : lo' ≤ lo) {m : Memory} (hm : Memory.wfFrom lo m = true) :
    Memory.wfFrom lo' m = true := by
  cases m with
  | nil => rfl
  | cons c m =>
    simp only [Memory.wfFrom, Bool.and_eq_true, decide_eq_true_eq] at hm ⊢
    exact ⟨⟨h.trans hm.1.1, hm.1.2⟩, hm.2⟩

/-- An index below every listed one is unlisted. -/
theorem read_of_lt {lo : Nat} {m : Memory} (hm : Memory.wfFrom lo m = true) {a : Nat} (ha : a < lo) :
    Memory.read m a = Config.unwrittenByte := by
  induction m generalizing lo with
  | nil => rfl
  | cons c m ih =>
    simp only [Memory.wfFrom, Bool.and_eq_true, decide_eq_true_eq] at hm
    rw [Memory.read, if_neg (by omega)]
    exact ih hm.2 (by omega)

theorem write_wfFrom {lo : Nat} {m : Memory} (hm : Memory.wfFrom lo m = true) {a : Nat} (ha : lo ≤ a) (v : Byte) :
    Memory.wfFrom lo (Memory.write m a v) = true := by
  induction m generalizing lo with
  | nil => unfold Memory.write; split <;> simp_all [Memory.wfFrom]
  | cons c m ih =>
    have hc := hm
    simp only [Memory.wfFrom, Bool.and_eq_true, decide_eq_true_eq] at hc
    unfold Memory.write
    split
    · split
      · exact hm
      · rename_i h1 h2
        simp only [Memory.wfFrom, Bool.and_eq_true, decide_eq_true_eq]
        exact ⟨⟨ha, h2⟩, ⟨by omega, hc.1.2⟩, hc.2⟩
    · split
      · split
        · exact wfFrom_mono (by omega) hc.2
        · rename_i h1 h2 h3
          subst h2
          simp only [Memory.wfFrom, Bool.and_eq_true, decide_eq_true_eq]
          exact ⟨⟨ha, h3⟩, hc.2⟩
      · simp only [Memory.wfFrom, Bool.and_eq_true, decide_eq_true_eq]
        exact ⟨hc.1, ih hc.2 (by omega)⟩

theorem read_write_wfFrom {lo : Nat} {m : Memory} (hm : Memory.wfFrom lo m = true) (a : Nat) (v : Byte) (j : Nat) :
    Memory.read (Memory.write m a v) j = if j = a then v else Memory.read m j := by
  induction m generalizing lo with
  | nil =>
    unfold Memory.write
    split
    · rename_i h; subst h; simp [Memory.read]
    · simp only [Memory.read, eq_comm]
  | cons c m ih =>
    simp only [Memory.wfFrom, Bool.and_eq_true, decide_eq_true_eq] at hm
    unfold Memory.write
    split
    · rename_i h1
      split
      · rename_i h2
        split
        · rename_i h3
          subst h3
          rw [Memory.read, if_neg (by omega), read_of_lt hm.2 (by omega), h2]
        · rfl
      · rw [Memory.read]
        by_cases hj : j = a
        · simp [hj]
        · rw [if_neg (fun h => hj h.symm), if_neg hj]
    · split
      · rename_i h1 h2
        split
        · rename_i h3
          by_cases hj : j = a
          · rw [if_pos hj, read_of_lt hm.2 (by omega), h3]
          · rw [if_neg hj, Memory.read, if_neg (by omega)]
        · simp only [Memory.read, h2]
          by_cases hj : c.1 = j
          · simp [hj]
          · rw [if_neg hj, if_neg (fun h => hj h.symm), if_neg hj]
      · rw [Memory.read, Memory.read, ih hm.2]
        by_cases hj : c.1 = j
        · rw [if_pos hj, if_neg (by omega), if_pos hj]
        · rw [if_neg hj, if_neg hj]

/-- A read after a write: the written index reads the written byte, every other index reads as before. -/
theorem read_write {size : Nat} {m : Memory} (hm : Memory.wf size m = true) (a : Nat) (v : Byte) (j : Nat) :
    Memory.read (Memory.write m a v) j = if j = a then v else Memory.read m j := by
  simp only [Memory.wf, Bool.and_eq_true] at hm
  exact read_write_wfFrom hm.1 a v j

/-- A write lists nothing new but the written cell. -/
theorem mem_write {m : Memory} {a : Nat} {v : Byte} {c : Host.Cell} (h : c ∈ Memory.write m a v) :
    c = (a, v) ∨ c ∈ m := by
  induction m with
  | nil => unfold Memory.write at h; split at h <;> simp_all
  | cons d m ih =>
    unfold Memory.write at h
    split at h
    · split at h
      · exact .inr h
      · exact List.mem_cons.mp h
    · split at h
      · split at h
        · exact .inr (List.mem_cons_of_mem _ h)
        · exact (List.mem_cons.mp h).imp_right (List.mem_cons_of_mem _)
      · rcases List.mem_cons.mp h with h | h
        · exact .inr (h ▸ List.mem_cons_self)
        · exact (ih h).imp_right (List.mem_cons_of_mem _)

/-- A write below the buffer's size keeps its canonical form. -/
theorem write_wf {size : Nat} {m : Memory} (hm : Memory.wf size m = true) {a : Nat} (ha : a < size) (v : Byte) :
    Memory.wf size (Memory.write m a v) = true := by
  simp only [Memory.wf, Bool.and_eq_true] at hm ⊢
  refine ⟨write_wfFrom hm.1 (Nat.zero_le a) v, List.all_eq_true.mpr fun c hc => ?_⟩
  rcases mem_write hc with rfl | hc
  · simpa using ha
  · exact List.all_eq_true.mp hm.2 c hc

/-- Writing several bytes inside the buffer keeps its canonical form. -/
theorem writeList_wf {size : Nat} (bs : List Byte) {m : Memory} (hm : Memory.wf size m = true) {a : Nat}
    (ha : a + bs.length ≤ size) : Memory.wf size (Memory.writeList m a bs) = true := by
  induction bs generalizing m a with
  | nil => exact hm
  | cons b bs ih =>
    simp only [List.length_cons] at ha
    exact ih (write_wf hm (by omega) b) (by omega)

/-- A read after writing several bytes: each written index reads its byte, every other index reads as before. -/
theorem read_writeList {size : Nat} (bs : List Byte) {m : Memory} (hm : Memory.wf size m = true) {a : Nat}
    (ha : a + bs.length ≤ size) : StoredAt m (Memory.writeList m a bs) a bs := by
  induction bs generalizing m a with
  | nil => intro i; simp [Memory.writeList]
  | cons b bs ih =>
    simp only [List.length_cons] at ha
    intro i
    have h := ih (write_wf hm (show a < size by omega) b) (a := a + 1) (by omega) i
    rw [Memory.writeList, h, read_write hm]
    by_cases h1 : i = a
    · subst h1; simp
    · by_cases h2 : a ≤ i ∧ i < a + (b :: bs).length
      · simp only [List.length_cons] at h2
        rw [if_pos (by omega), if_pos (by simp only [List.length_cons]; omega),
          show i - a = (i - (a + 1)) + 1 by omega, List.getD_cons_succ]
      · simp only [List.length_cons] at h2
        rw [if_neg (by omega), if_neg h1, if_neg (by simp only [List.length_cons]; omega)]

@[simp] theorem firstBytes_length (m : Memory) (n : Nat) : (Memory.firstBytes m n).length = n := by
  simp [Memory.firstBytes]

@[simp] theorem firstBytes_zero (m : Memory) : Memory.firstBytes m 0 = [] := rfl

theorem firstBytes_getElem (m : Memory) {n i : Nat} (h : i < n) :
    (Memory.firstBytes m n)[i]'(by simpa using h) = Memory.read m i := by
  simp [Memory.firstBytes]

theorem firstBytes_succ (m : Memory) (n : Nat) :
    Memory.firstBytes m (n + 1) = Memory.firstBytes m n ++ [Memory.read m n] := by
  simp [Memory.firstBytes, List.range_succ]

/-- The first bytes depend only on the bytes read. -/
theorem firstBytes_congr {m m' : Memory} {n : Nat} (h : ∀ i, i < n → Memory.read m i = Memory.read m' i) :
    Memory.firstBytes m n = Memory.firstBytes m' n := by
  simp only [Memory.firstBytes]
  exact List.map_congr_left (fun i hi => h i (List.mem_range.mp hi))

end Sys2Proof.Machine
end

