-- ==== Sys2Proof/Laws/State.lean ====
section
/-! SUPPORT. One lemma per field per update, true by rfl, so that no proof unfolds an update. -/

namespace Sys2Proof.Machine

/-! ## Updates of the state -/

@[simp] theorem State.setCk_ck (s : State) (x : CkAcc) : (s.setCk x).ck = x := rfl
@[simp] theorem State.setCk_crc (s : State) (x : CkAcc) : (s.setCk x).crc = s.crc := rfl
@[simp] theorem State.setCk_can (s : State) (x : CkAcc) : (s.setCk x).can = s.can := rfl
@[simp] theorem State.setCk_tx (s : State) (x : CkAcc) : (s.setCk x).tx = s.tx := rfl
@[simp] theorem State.setCk_rx (s : State) (x : CkAcc) : (s.setCk x).rx = s.rx := rfl
@[simp] theorem State.setCk_rxPtr (s : State) (x : CkAcc) : (s.setCk x).rxPtr = s.rxPtr := rfl
@[simp] theorem State.setCk_err (s : State) (x : CkAcc) : (s.setCk x).err = s.err := rfl
@[simp] theorem State.setCk_serialOut (s : State) (x : CkAcc) : (s.setCk x).serialOut = s.serialOut := rfl
@[simp] theorem State.setCk_canOut (s : State) (x : CkAcc) : (s.setCk x).canOut = s.canOut := rfl
@[simp] theorem State.setCk_hostReads (s : State) (x : CkAcc) : (s.setCk x).hostReads = s.hostReads := rfl
@[simp] theorem State.setCk_inputs (s : State) (x : CkAcc) : (s.setCk x).inputs = s.inputs := rfl

@[simp] theorem State.setCrc_ck (s : State) (x : CrcCfg) : (s.setCrc x).ck = s.ck := rfl
@[simp] theorem State.setCrc_crc (s : State) (x : CrcCfg) : (s.setCrc x).crc = x := rfl
@[simp] theorem State.setCrc_can (s : State) (x : CrcCfg) : (s.setCrc x).can = s.can := rfl
@[simp] theorem State.setCrc_tx (s : State) (x : CrcCfg) : (s.setCrc x).tx = s.tx := rfl
@[simp] theorem State.setCrc_rx (s : State) (x : CrcCfg) : (s.setCrc x).rx = s.rx := rfl
@[simp] theorem State.setCrc_rxPtr (s : State) (x : CrcCfg) : (s.setCrc x).rxPtr = s.rxPtr := rfl
@[simp] theorem State.setCrc_err (s : State) (x : CrcCfg) : (s.setCrc x).err = s.err := rfl
@[simp] theorem State.setCrc_serialOut (s : State) (x : CrcCfg) : (s.setCrc x).serialOut = s.serialOut := rfl
@[simp] theorem State.setCrc_canOut (s : State) (x : CrcCfg) : (s.setCrc x).canOut = s.canOut := rfl
@[simp] theorem State.setCrc_hostReads (s : State) (x : CrcCfg) : (s.setCrc x).hostReads = s.hostReads := rfl
@[simp] theorem State.setCrc_inputs (s : State) (x : CrcCfg) : (s.setCrc x).inputs = s.inputs := rfl

@[simp] theorem State.setCan_ck (s : State) (x : CanIds) : (s.setCan x).ck = s.ck := rfl
@[simp] theorem State.setCan_crc (s : State) (x : CanIds) : (s.setCan x).crc = s.crc := rfl
@[simp] theorem State.setCan_can (s : State) (x : CanIds) : (s.setCan x).can = x := rfl
@[simp] theorem State.setCan_tx (s : State) (x : CanIds) : (s.setCan x).tx = s.tx := rfl
@[simp] theorem State.setCan_rx (s : State) (x : CanIds) : (s.setCan x).rx = s.rx := rfl
@[simp] theorem State.setCan_rxPtr (s : State) (x : CanIds) : (s.setCan x).rxPtr = s.rxPtr := rfl
@[simp] theorem State.setCan_err (s : State) (x : CanIds) : (s.setCan x).err = s.err := rfl
@[simp] theorem State.setCan_serialOut (s : State) (x : CanIds) : (s.setCan x).serialOut = s.serialOut := rfl
@[simp] theorem State.setCan_canOut (s : State) (x : CanIds) : (s.setCan x).canOut = s.canOut := rfl
@[simp] theorem State.setCan_hostReads (s : State) (x : CanIds) : (s.setCan x).hostReads = s.hostReads := rfl
@[simp] theorem State.setCan_inputs (s : State) (x : CanIds) : (s.setCan x).inputs = s.inputs := rfl

@[simp] theorem State.setTx_ck (s : State) (x : TxUnit) : (s.setTx x).ck = s.ck := rfl
@[simp] theorem State.setTx_crc (s : State) (x : TxUnit) : (s.setTx x).crc = s.crc := rfl
@[simp] theorem State.setTx_can (s : State) (x : TxUnit) : (s.setTx x).can = s.can := rfl
@[simp] theorem State.setTx_tx (s : State) (x : TxUnit) : (s.setTx x).tx = x := rfl
@[simp] theorem State.setTx_rx (s : State) (x : TxUnit) : (s.setTx x).rx = s.rx := rfl
@[simp] theorem State.setTx_rxPtr (s : State) (x : TxUnit) : (s.setTx x).rxPtr = s.rxPtr := rfl
@[simp] theorem State.setTx_err (s : State) (x : TxUnit) : (s.setTx x).err = s.err := rfl
@[simp] theorem State.setTx_serialOut (s : State) (x : TxUnit) : (s.setTx x).serialOut = s.serialOut := rfl
@[simp] theorem State.setTx_canOut (s : State) (x : TxUnit) : (s.setTx x).canOut = s.canOut := rfl
@[simp] theorem State.setTx_hostReads (s : State) (x : TxUnit) : (s.setTx x).hostReads = s.hostReads := rfl
@[simp] theorem State.setTx_inputs (s : State) (x : TxUnit) : (s.setTx x).inputs = s.inputs := rfl

@[simp] theorem State.setRx_ck (s : State) (x : RxUnit) : (s.setRx x).ck = s.ck := rfl
@[simp] theorem State.setRx_crc (s : State) (x : RxUnit) : (s.setRx x).crc = s.crc := rfl
@[simp] theorem State.setRx_can (s : State) (x : RxUnit) : (s.setRx x).can = s.can := rfl
@[simp] theorem State.setRx_tx (s : State) (x : RxUnit) : (s.setRx x).tx = s.tx := rfl
@[simp] theorem State.setRx_rx (s : State) (x : RxUnit) : (s.setRx x).rx = x := rfl
@[simp] theorem State.setRx_rxPtr (s : State) (x : RxUnit) : (s.setRx x).rxPtr = s.rxPtr := rfl
@[simp] theorem State.setRx_err (s : State) (x : RxUnit) : (s.setRx x).err = s.err := rfl
@[simp] theorem State.setRx_serialOut (s : State) (x : RxUnit) : (s.setRx x).serialOut = s.serialOut := rfl
@[simp] theorem State.setRx_canOut (s : State) (x : RxUnit) : (s.setRx x).canOut = s.canOut := rfl
@[simp] theorem State.setRx_hostReads (s : State) (x : RxUnit) : (s.setRx x).hostReads = s.hostReads := rfl
@[simp] theorem State.setRx_inputs (s : State) (x : RxUnit) : (s.setRx x).inputs = s.inputs := rfl

@[simp] theorem State.setRxPtr_ck (s : State) (x : BitVec 12) : (s.setRxPtr x).ck = s.ck := rfl
@[simp] theorem State.setRxPtr_crc (s : State) (x : BitVec 12) : (s.setRxPtr x).crc = s.crc := rfl
@[simp] theorem State.setRxPtr_can (s : State) (x : BitVec 12) : (s.setRxPtr x).can = s.can := rfl
@[simp] theorem State.setRxPtr_tx (s : State) (x : BitVec 12) : (s.setRxPtr x).tx = s.tx := rfl
@[simp] theorem State.setRxPtr_rx (s : State) (x : BitVec 12) : (s.setRxPtr x).rx = s.rx := rfl
@[simp] theorem State.setRxPtr_rxPtr (s : State) (x : BitVec 12) : (s.setRxPtr x).rxPtr = x := rfl
@[simp] theorem State.setRxPtr_err (s : State) (x : BitVec 12) : (s.setRxPtr x).err = s.err := rfl
@[simp] theorem State.setRxPtr_serialOut (s : State) (x : BitVec 12) : (s.setRxPtr x).serialOut = s.serialOut := rfl
@[simp] theorem State.setRxPtr_canOut (s : State) (x : BitVec 12) : (s.setRxPtr x).canOut = s.canOut := rfl
@[simp] theorem State.setRxPtr_hostReads (s : State) (x : BitVec 12) : (s.setRxPtr x).hostReads = s.hostReads := rfl
@[simp] theorem State.setRxPtr_inputs (s : State) (x : BitVec 12) : (s.setRxPtr x).inputs = s.inputs := rfl

@[simp] theorem State.setErr_ck (s : State) (x : ErrFlags) : (s.setErr x).ck = s.ck := rfl
@[simp] theorem State.setErr_crc (s : State) (x : ErrFlags) : (s.setErr x).crc = s.crc := rfl
@[simp] theorem State.setErr_can (s : State) (x : ErrFlags) : (s.setErr x).can = s.can := rfl
@[simp] theorem State.setErr_tx (s : State) (x : ErrFlags) : (s.setErr x).tx = s.tx := rfl
@[simp] theorem State.setErr_rx (s : State) (x : ErrFlags) : (s.setErr x).rx = s.rx := rfl
@[simp] theorem State.setErr_rxPtr (s : State) (x : ErrFlags) : (s.setErr x).rxPtr = s.rxPtr := rfl
@[simp] theorem State.setErr_err (s : State) (x : ErrFlags) : (s.setErr x).err = x := rfl
@[simp] theorem State.setErr_serialOut (s : State) (x : ErrFlags) : (s.setErr x).serialOut = s.serialOut := rfl
@[simp] theorem State.setErr_canOut (s : State) (x : ErrFlags) : (s.setErr x).canOut = s.canOut := rfl
@[simp] theorem State.setErr_hostReads (s : State) (x : ErrFlags) : (s.setErr x).hostReads = s.hostReads := rfl
@[simp] theorem State.setErr_inputs (s : State) (x : ErrFlags) : (s.setErr x).inputs = s.inputs := rfl

@[simp] theorem State.setInputs_ck (s : State) (x : List Event) : (s.setInputs x).ck = s.ck := rfl
@[simp] theorem State.setInputs_crc (s : State) (x : List Event) : (s.setInputs x).crc = s.crc := rfl
@[simp] theorem State.setInputs_can (s : State) (x : List Event) : (s.setInputs x).can = s.can := rfl
@[simp] theorem State.setInputs_tx (s : State) (x : List Event) : (s.setInputs x).tx = s.tx := rfl
@[simp] theorem State.setInputs_rx (s : State) (x : List Event) : (s.setInputs x).rx = s.rx := rfl
@[simp] theorem State.setInputs_rxPtr (s : State) (x : List Event) : (s.setInputs x).rxPtr = s.rxPtr := rfl
@[simp] theorem State.setInputs_err (s : State) (x : List Event) : (s.setInputs x).err = s.err := rfl
@[simp] theorem State.setInputs_serialOut (s : State) (x : List Event) : (s.setInputs x).serialOut = s.serialOut := rfl
@[simp] theorem State.setInputs_canOut (s : State) (x : List Event) : (s.setInputs x).canOut = s.canOut := rfl
@[simp] theorem State.setInputs_hostReads (s : State) (x : List Event) : (s.setInputs x).hostReads = s.hostReads := rfl
@[simp] theorem State.setInputs_inputs (s : State) (x : List Event) : (s.setInputs x).inputs = x := rfl

@[simp] theorem State.emitSerial_ck (s : State) (bs : List Byte) : (s.emitSerial bs).ck = s.ck := rfl
@[simp] theorem State.emitSerial_crc (s : State) (bs : List Byte) : (s.emitSerial bs).crc = s.crc := rfl
@[simp] theorem State.emitSerial_can (s : State) (bs : List Byte) : (s.emitSerial bs).can = s.can := rfl
@[simp] theorem State.emitSerial_tx (s : State) (bs : List Byte) : (s.emitSerial bs).tx = s.tx := rfl
@[simp] theorem State.emitSerial_rx (s : State) (bs : List Byte) : (s.emitSerial bs).rx = s.rx := rfl
@[simp] theorem State.emitSerial_rxPtr (s : State) (bs : List Byte) : (s.emitSerial bs).rxPtr = s.rxPtr := rfl
@[simp] theorem State.emitSerial_err (s : State) (bs : List Byte) : (s.emitSerial bs).err = s.err := rfl
@[simp] theorem State.emitSerial_serialOut (s : State) (bs : List Byte) : (s.emitSerial bs).serialOut = s.serialOut ++ bs := rfl
@[simp] theorem State.emitSerial_canOut (s : State) (bs : List Byte) : (s.emitSerial bs).canOut = s.canOut := rfl
@[simp] theorem State.emitSerial_hostReads (s : State) (bs : List Byte) : (s.emitSerial bs).hostReads = s.hostReads := rfl
@[simp] theorem State.emitSerial_inputs (s : State) (bs : List Byte) : (s.emitSerial bs).inputs = s.inputs := rfl

@[simp] theorem State.emitCan_ck (s : State) (f : CanFrame) : (s.emitCan f).ck = s.ck := rfl
@[simp] theorem State.emitCan_crc (s : State) (f : CanFrame) : (s.emitCan f).crc = s.crc := rfl
@[simp] theorem State.emitCan_can (s : State) (f : CanFrame) : (s.emitCan f).can = s.can := rfl
@[simp] theorem State.emitCan_tx (s : State) (f : CanFrame) : (s.emitCan f).tx = s.tx := rfl
@[simp] theorem State.emitCan_rx (s : State) (f : CanFrame) : (s.emitCan f).rx = s.rx := rfl
@[simp] theorem State.emitCan_rxPtr (s : State) (f : CanFrame) : (s.emitCan f).rxPtr = s.rxPtr := rfl
@[simp] theorem State.emitCan_err (s : State) (f : CanFrame) : (s.emitCan f).err = s.err := rfl
@[simp] theorem State.emitCan_serialOut (s : State) (f : CanFrame) : (s.emitCan f).serialOut = s.serialOut := rfl
@[simp] theorem State.emitCan_canOut (s : State) (f : CanFrame) : (s.emitCan f).canOut = s.canOut ++ [f] := rfl
@[simp] theorem State.emitCan_hostReads (s : State) (f : CanFrame) : (s.emitCan f).hostReads = s.hostReads := rfl
@[simp] theorem State.emitCan_inputs (s : State) (f : CanFrame) : (s.emitCan f).inputs = s.inputs := rfl

@[simp] theorem State.emitRead_ck (s : State) (v : Word) : (s.emitRead v).ck = s.ck := rfl
@[simp] theorem State.emitRead_crc (s : State) (v : Word) : (s.emitRead v).crc = s.crc := rfl
@[simp] theorem State.emitRead_can (s : State) (v : Word) : (s.emitRead v).can = s.can := rfl
@[simp] theorem State.emitRead_tx (s : State) (v : Word) : (s.emitRead v).tx = s.tx := rfl
@[simp] theorem State.emitRead_rx (s : State) (v : Word) : (s.emitRead v).rx = s.rx := rfl
@[simp] theorem State.emitRead_rxPtr (s : State) (v : Word) : (s.emitRead v).rxPtr = s.rxPtr := rfl
@[simp] theorem State.emitRead_err (s : State) (v : Word) : (s.emitRead v).err = s.err := rfl
@[simp] theorem State.emitRead_serialOut (s : State) (v : Word) : (s.emitRead v).serialOut = s.serialOut := rfl
@[simp] theorem State.emitRead_canOut (s : State) (v : Word) : (s.emitRead v).canOut = s.canOut := rfl
@[simp] theorem State.emitRead_hostReads (s : State) (v : Word) : (s.emitRead v).hostReads = s.hostReads ++ [v] := rfl
@[simp] theorem State.emitRead_inputs (s : State) (v : Word) : (s.emitRead v).inputs = s.inputs := rfl

@[simp] theorem State.resetBlock_ck (s : State) : (s.resetBlock).ck = ckReset := rfl
@[simp] theorem State.resetBlock_crc (s : State) : (s.resetBlock).crc = crcReset := rfl
@[simp] theorem State.resetBlock_can (s : State) : (s.resetBlock).can = canReset := rfl
@[simp] theorem State.resetBlock_tx (s : State) : (s.resetBlock).tx = txReset := rfl
@[simp] theorem State.resetBlock_rx (s : State) : (s.resetBlock).rx = rxReset := rfl
@[simp] theorem State.resetBlock_rxPtr (s : State) : (s.resetBlock).rxPtr = 0#12 := rfl
@[simp] theorem State.resetBlock_err (s : State) : (s.resetBlock).err = errReset := rfl
@[simp] theorem State.resetBlock_serialOut (s : State) : (s.resetBlock).serialOut = s.serialOut := rfl
@[simp] theorem State.resetBlock_canOut (s : State) : (s.resetBlock).canOut = s.canOut := rfl
@[simp] theorem State.resetBlock_hostReads (s : State) : (s.resetBlock).hostReads = s.hostReads := rfl
@[simp] theorem State.resetBlock_inputs (s : State) : (s.resetBlock).inputs = s.inputs := rfl

@[simp] theorem State.arm_ck (s : State) (fam : RxFam) (ph : RxPhase) (e : BitVec 12) : (s.arm fam ph e).ck = s.ck := rfl
@[simp] theorem State.arm_crc (s : State) (fam : RxFam) (ph : RxPhase) (e : BitVec 12) : (s.arm fam ph e).crc = s.crc := rfl
@[simp] theorem State.arm_can (s : State) (fam : RxFam) (ph : RxPhase) (e : BitVec 12) : (s.arm fam ph e).can = s.can := rfl
@[simp] theorem State.arm_tx (s : State) (fam : RxFam) (ph : RxPhase) (e : BitVec 12) : (s.arm fam ph e).tx = s.tx := rfl
@[simp] theorem State.arm_rx (s : State) (fam : RxFam) (ph : RxPhase) (e : BitVec 12) : (s.arm fam ph e).rx = rxArm fam ph e s.rx := rfl
@[simp] theorem State.arm_rxPtr (s : State) (fam : RxFam) (ph : RxPhase) (e : BitVec 12) : (s.arm fam ph e).rxPtr = s.rxPtr := rfl
@[simp] theorem State.arm_err (s : State) (fam : RxFam) (ph : RxPhase) (e : BitVec 12) : (s.arm fam ph e).err = s.err := rfl
@[simp] theorem State.arm_serialOut (s : State) (fam : RxFam) (ph : RxPhase) (e : BitVec 12) : (s.arm fam ph e).serialOut = s.serialOut := rfl
@[simp] theorem State.arm_canOut (s : State) (fam : RxFam) (ph : RxPhase) (e : BitVec 12) : (s.arm fam ph e).canOut = s.canOut := rfl
@[simp] theorem State.arm_hostReads (s : State) (fam : RxFam) (ph : RxPhase) (e : BitVec 12) : (s.arm fam ph e).hostReads = s.hostReads := rfl
@[simp] theorem State.arm_inputs (s : State) (fam : RxFam) (ph : RxPhase) (e : BitVec 12) : (s.arm fam ph e).inputs = s.inputs := rfl

@[simp] theorem State.complete_ck (s : State) (c : RxSt) : (s.complete c).ck = s.ck := rfl
@[simp] theorem State.complete_crc (s : State) (c : RxSt) : (s.complete c).crc = s.crc := rfl
@[simp] theorem State.complete_can (s : State) (c : RxSt) : (s.complete c).can = s.can := rfl
@[simp] theorem State.complete_tx (s : State) (c : RxSt) : (s.complete c).tx = s.tx := rfl
@[simp] theorem State.complete_rx (s : State) (c : RxSt) : (s.complete c).rx = rxComplete c s.rx := rfl
@[simp] theorem State.complete_rxPtr (s : State) (c : RxSt) : (s.complete c).rxPtr = s.rxPtr := rfl
@[simp] theorem State.complete_err (s : State) (c : RxSt) : (s.complete c).err = s.err := rfl
@[simp] theorem State.complete_serialOut (s : State) (c : RxSt) : (s.complete c).serialOut = s.serialOut := rfl
@[simp] theorem State.complete_canOut (s : State) (c : RxSt) : (s.complete c).canOut = s.canOut := rfl
@[simp] theorem State.complete_hostReads (s : State) (c : RxSt) : (s.complete c).hostReads = s.hostReads := rfl
@[simp] theorem State.complete_inputs (s : State) (c : RxSt) : (s.complete c).inputs = s.inputs := rfl

@[simp] theorem State.stray_ck (s : State) : (s.stray).ck = s.ck := rfl
@[simp] theorem State.stray_crc (s : State) : (s.stray).crc = s.crc := rfl
@[simp] theorem State.stray_can (s : State) : (s.stray).can = s.can := rfl
@[simp] theorem State.stray_tx (s : State) : (s.stray).tx = s.tx := rfl
@[simp] theorem State.stray_rx (s : State) : (s.stray).rx = s.rx := rfl
@[simp] theorem State.stray_rxPtr (s : State) : (s.stray).rxPtr = s.rxPtr := rfl
@[simp] theorem State.stray_err (s : State) : (s.stray).err = setStray s.err := rfl
@[simp] theorem State.stray_serialOut (s : State) : (s.stray).serialOut = s.serialOut := rfl
@[simp] theorem State.stray_canOut (s : State) : (s.stray).canOut = s.canOut := rfl
@[simp] theorem State.stray_hostReads (s : State) : (s.stray).hostReads = s.hostReads := rfl
@[simp] theorem State.stray_inputs (s : State) : (s.stray).inputs = s.inputs := rfl

@[simp] theorem State.illegal_ck (s : State) : (s.illegal).ck = s.ck := rfl
@[simp] theorem State.illegal_crc (s : State) : (s.illegal).crc = s.crc := rfl
@[simp] theorem State.illegal_can (s : State) : (s.illegal).can = s.can := rfl
@[simp] theorem State.illegal_tx (s : State) : (s.illegal).tx = s.tx := rfl
@[simp] theorem State.illegal_rx (s : State) : (s.illegal).rx = s.rx := rfl
@[simp] theorem State.illegal_rxPtr (s : State) : (s.illegal).rxPtr = s.rxPtr := rfl
@[simp] theorem State.illegal_err (s : State) : (s.illegal).err = setIll s.err := rfl
@[simp] theorem State.illegal_serialOut (s : State) : (s.illegal).serialOut = s.serialOut := rfl
@[simp] theorem State.illegal_canOut (s : State) : (s.illegal).canOut = s.canOut := rfl
@[simp] theorem State.illegal_hostReads (s : State) : (s.illegal).hostReads = s.hostReads := rfl
@[simp] theorem State.illegal_inputs (s : State) : (s.illegal).inputs = s.inputs := rfl

@[simp] theorem State.rejectHdx_ck (s : State) : (s.rejectHdx).ck = s.ck := rfl
@[simp] theorem State.rejectHdx_crc (s : State) : (s.rejectHdx).crc = s.crc := rfl
@[simp] theorem State.rejectHdx_can (s : State) : (s.rejectHdx).can = s.can := rfl
@[simp] theorem State.rejectHdx_tx (s : State) : (s.rejectHdx).tx = s.tx := rfl
@[simp] theorem State.rejectHdx_rx (s : State) : (s.rejectHdx).rx = s.rx := rfl
@[simp] theorem State.rejectHdx_rxPtr (s : State) : (s.rejectHdx).rxPtr = s.rxPtr := rfl
@[simp] theorem State.rejectHdx_err (s : State) : (s.rejectHdx).err = setHdx s.err := rfl
@[simp] theorem State.rejectHdx_serialOut (s : State) : (s.rejectHdx).serialOut = s.serialOut := rfl
@[simp] theorem State.rejectHdx_canOut (s : State) : (s.rejectHdx).canOut = s.canOut := rfl
@[simp] theorem State.rejectHdx_hostReads (s : State) : (s.rejectHdx).hostReads = s.hostReads := rfl
@[simp] theorem State.rejectHdx_inputs (s : State) : (s.rejectHdx).inputs = s.inputs := rfl

@[simp] theorem State.rejectTxlen_ck (s : State) : (s.rejectTxlen).ck = s.ck := rfl
@[simp] theorem State.rejectTxlen_crc (s : State) : (s.rejectTxlen).crc = s.crc := rfl
@[simp] theorem State.rejectTxlen_can (s : State) : (s.rejectTxlen).can = s.can := rfl
@[simp] theorem State.rejectTxlen_tx (s : State) : (s.rejectTxlen).tx = s.tx := rfl
@[simp] theorem State.rejectTxlen_rx (s : State) : (s.rejectTxlen).rx = s.rx := rfl
@[simp] theorem State.rejectTxlen_rxPtr (s : State) : (s.rejectTxlen).rxPtr = s.rxPtr := rfl
@[simp] theorem State.rejectTxlen_err (s : State) : (s.rejectTxlen).err = setTxlen s.err := rfl
@[simp] theorem State.rejectTxlen_serialOut (s : State) : (s.rejectTxlen).serialOut = s.serialOut := rfl
@[simp] theorem State.rejectTxlen_canOut (s : State) : (s.rejectTxlen).canOut = s.canOut := rfl
@[simp] theorem State.rejectTxlen_hostReads (s : State) : (s.rejectTxlen).hostReads = s.hostReads := rfl
@[simp] theorem State.rejectTxlen_inputs (s : State) : (s.rejectTxlen).inputs = s.inputs := rfl

@[simp] theorem State.pushInput_ck (s : State) (e : Event) : (s.pushInput e).ck = s.ck := rfl
@[simp] theorem State.pushInput_crc (s : State) (e : Event) : (s.pushInput e).crc = s.crc := rfl
@[simp] theorem State.pushInput_can (s : State) (e : Event) : (s.pushInput e).can = s.can := rfl
@[simp] theorem State.pushInput_tx (s : State) (e : Event) : (s.pushInput e).tx = s.tx := rfl
@[simp] theorem State.pushInput_rx (s : State) (e : Event) : (s.pushInput e).rx = s.rx := rfl
@[simp] theorem State.pushInput_rxPtr (s : State) (e : Event) : (s.pushInput e).rxPtr = s.rxPtr := rfl
@[simp] theorem State.pushInput_err (s : State) (e : Event) : (s.pushInput e).err = s.err := rfl
@[simp] theorem State.pushInput_serialOut (s : State) (e : Event) : (s.pushInput e).serialOut = s.serialOut := rfl
@[simp] theorem State.pushInput_canOut (s : State) (e : Event) : (s.pushInput e).canOut = s.canOut := rfl
@[simp] theorem State.pushInput_hostReads (s : State) (e : Event) : (s.pushInput e).hostReads = s.hostReads := rfl
@[simp] theorem State.pushInput_inputs (s : State) (e : Event) : (s.pushInput e).inputs = e :: s.inputs := rfl

/-! ## Updates of the receiver -/

@[simp] theorem rxArm_rxSt (fam : RxFam) (ph : RxPhase) (e : BitVec 12) (r : RxUnit) : (rxArm fam ph e r).rxSt = .busy := rfl
@[simp] theorem rxArm_rxFam (fam : RxFam) (ph : RxPhase) (e : BitVec 12) (r : RxUnit) : (rxArm fam ph e r).rxFam = fam := rfl
@[simp] theorem rxArm_rxPhase (fam : RxFam) (ph : RxPhase) (e : BitVec 12) (r : RxUnit) : (rxArm fam ph e r).rxPhase = ph := rfl
@[simp] theorem rxArm_rxBuf (fam : RxFam) (ph : RxPhase) (e : BitVec 12) (r : RxUnit) : (rxArm fam ph e r).rxBuf = r.rxBuf := rfl
@[simp] theorem rxArm_rxExp (fam : RxFam) (ph : RxPhase) (e : BitVec 12) (r : RxUnit) : (rxArm fam ph e r).rxExp = e := rfl
@[simp] theorem rxArm_rxIdx (fam : RxFam) (ph : RxPhase) (e : BitVec 12) (r : RxUnit) : (rxArm fam ph e r).rxIdx = 0#12 := rfl
@[simp] theorem rxArm_rxSum (fam : RxFam) (ph : RxPhase) (e : BitVec 12) (r : RxUnit) : (rxArm fam ph e r).rxSum = 0#8 := rfl
@[simp] theorem rxArm_rxSn (fam : RxFam) (ph : RxPhase) (e : BitVec 12) (r : RxUnit) : (rxArm fam ph e r).rxSn = 0#4 := rfl
@[simp] theorem rxArm_rxCommit (fam : RxFam) (ph : RxPhase) (e : BitVec 12) (r : RxUnit) : (rxArm fam ph e r).rxCommit = 0#12 := rfl
@[simp] theorem rxArm_chkRx (fam : RxFam) (ph : RxPhase) (e : BitVec 12) (r : RxUnit) : (rxArm fam ph e r).chkRx = 0#8 := rfl
@[simp] theorem rxArm_chkCalc (fam : RxFam) (ph : RxPhase) (e : BitVec 12) (r : RxUnit) : (rxArm fam ph e r).chkCalc = 0#8 := rfl
@[simp] theorem rxArm_chkSeen (fam : RxFam) (ph : RxPhase) (e : BitVec 12) (r : RxUnit) : (rxArm fam ph e r).chkSeen = false := rfl
@[simp] theorem rxArm_chkMatch (fam : RxFam) (ph : RxPhase) (e : BitVec 12) (r : RxUnit) : (rxArm fam ph e r).chkMatch = false := rfl

@[simp] theorem rxComplete_rxSt (c : RxSt) (r : RxUnit) : (rxComplete c r).rxSt = c := rfl
@[simp] theorem rxComplete_rxFam (c : RxSt) (r : RxUnit) : (rxComplete c r).rxFam = r.rxFam := rfl
@[simp] theorem rxComplete_rxPhase (c : RxSt) (r : RxUnit) : (rxComplete c r).rxPhase = .none := rfl
@[simp] theorem rxComplete_rxBuf (c : RxSt) (r : RxUnit) : (rxComplete c r).rxBuf = r.rxBuf := rfl
@[simp] theorem rxComplete_rxExp (c : RxSt) (r : RxUnit) : (rxComplete c r).rxExp = r.rxExp := rfl
@[simp] theorem rxComplete_rxIdx (c : RxSt) (r : RxUnit) : (rxComplete c r).rxIdx = r.rxIdx := rfl
@[simp] theorem rxComplete_rxSum (c : RxSt) (r : RxUnit) : (rxComplete c r).rxSum = r.rxSum := rfl
@[simp] theorem rxComplete_rxSn (c : RxSt) (r : RxUnit) : (rxComplete c r).rxSn = r.rxSn := rfl
@[simp] theorem rxComplete_rxCommit (c : RxSt) (r : RxUnit) : (rxComplete c r).rxCommit = if c = .ok then r.rxExp else 0#12 := rfl
@[simp] theorem rxComplete_chkRx (c : RxSt) (r : RxUnit) : (rxComplete c r).chkRx = r.chkRx := rfl
@[simp] theorem rxComplete_chkCalc (c : RxSt) (r : RxUnit) : (rxComplete c r).chkCalc = r.chkCalc := rfl
@[simp] theorem rxComplete_chkSeen (c : RxSt) (r : RxUnit) : (rxComplete c r).chkSeen = r.chkSeen := rfl
@[simp] theorem rxComplete_chkMatch (c : RxSt) (r : RxUnit) : (rxComplete c r).chkMatch = r.chkMatch := rfl

@[simp] theorem checked_rxSt (b x : Byte) (r : RxUnit) : (checked b x r).rxSt = r.rxSt := rfl
@[simp] theorem checked_rxFam (b x : Byte) (r : RxUnit) : (checked b x r).rxFam = r.rxFam := rfl
@[simp] theorem checked_rxPhase (b x : Byte) (r : RxUnit) : (checked b x r).rxPhase = r.rxPhase := rfl
@[simp] theorem checked_rxBuf (b x : Byte) (r : RxUnit) : (checked b x r).rxBuf = r.rxBuf := rfl
@[simp] theorem checked_rxExp (b x : Byte) (r : RxUnit) : (checked b x r).rxExp = r.rxExp := rfl
@[simp] theorem checked_rxIdx (b x : Byte) (r : RxUnit) : (checked b x r).rxIdx = r.rxIdx := rfl
@[simp] theorem checked_rxSum (b x : Byte) (r : RxUnit) : (checked b x r).rxSum = r.rxSum := rfl
@[simp] theorem checked_rxSn (b x : Byte) (r : RxUnit) : (checked b x r).rxSn = r.rxSn := rfl
@[simp] theorem checked_rxCommit (b x : Byte) (r : RxUnit) : (checked b x r).rxCommit = r.rxCommit := rfl
@[simp] theorem checked_chkRx (b x : Byte) (r : RxUnit) : (checked b x r).chkRx = b := rfl
@[simp] theorem checked_chkCalc (b x : Byte) (r : RxUnit) : (checked b x r).chkCalc = x := rfl
@[simp] theorem checked_chkSeen (b x : Byte) (r : RxUnit) : (checked b x r).chkSeen = true := rfl
@[simp] theorem checked_chkMatch (b x : Byte) (r : RxUnit) : (checked b x r).chkMatch = decide (b = x) := rfl

@[simp] theorem rxStored_rxSt (b : Byte) (r : RxUnit) : (rxStored b r).rxSt = r.rxSt := rfl
@[simp] theorem rxStored_rxFam (b : Byte) (r : RxUnit) : (rxStored b r).rxFam = r.rxFam := rfl
@[simp] theorem rxStored_rxPhase (b : Byte) (r : RxUnit) : (rxStored b r).rxPhase = r.rxPhase := rfl
@[simp] theorem rxStored_rxBuf (b : Byte) (r : RxUnit) : (rxStored b r).rxBuf = Memory.write r.rxBuf r.rxIdx.toNat b := rfl
@[simp] theorem rxStored_rxExp (b : Byte) (r : RxUnit) : (rxStored b r).rxExp = r.rxExp := rfl
@[simp] theorem rxStored_rxIdx (b : Byte) (r : RxUnit) : (rxStored b r).rxIdx = r.rxIdx + 1#12 := rfl
@[simp] theorem rxStored_rxSum (b : Byte) (r : RxUnit) : (rxStored b r).rxSum = r.rxSum := rfl
@[simp] theorem rxStored_rxSn (b : Byte) (r : RxUnit) : (rxStored b r).rxSn = r.rxSn := rfl
@[simp] theorem rxStored_rxCommit (b : Byte) (r : RxUnit) : (rxStored b r).rxCommit = r.rxCommit := rfl
@[simp] theorem rxStored_chkRx (b : Byte) (r : RxUnit) : (rxStored b r).chkRx = r.chkRx := rfl
@[simp] theorem rxStored_chkCalc (b : Byte) (r : RxUnit) : (rxStored b r).chkCalc = r.chkCalc := rfl
@[simp] theorem rxStored_chkSeen (b : Byte) (r : RxUnit) : (rxStored b r).chkSeen = r.chkSeen := rfl
@[simp] theorem rxStored_chkMatch (b : Byte) (r : RxUnit) : (rxStored b r).chkMatch = r.chkMatch := rfl

@[simp] theorem rxStoreAll_rxSt (k : Nat) (bs : List Byte) (r : RxUnit) : (rxStoreAll k bs r).rxSt = r.rxSt := rfl
@[simp] theorem rxStoreAll_rxFam (k : Nat) (bs : List Byte) (r : RxUnit) : (rxStoreAll k bs r).rxFam = r.rxFam := rfl
@[simp] theorem rxStoreAll_rxPhase (k : Nat) (bs : List Byte) (r : RxUnit) : (rxStoreAll k bs r).rxPhase = r.rxPhase := rfl
@[simp] theorem rxStoreAll_rxBuf (k : Nat) (bs : List Byte) (r : RxUnit) : (rxStoreAll k bs r).rxBuf = Memory.writeList r.rxBuf k bs := rfl
@[simp] theorem rxStoreAll_rxExp (k : Nat) (bs : List Byte) (r : RxUnit) : (rxStoreAll k bs r).rxExp = r.rxExp := rfl
@[simp] theorem rxStoreAll_rxIdx (k : Nat) (bs : List Byte) (r : RxUnit) : (rxStoreAll k bs r).rxIdx = r.rxIdx := rfl
@[simp] theorem rxStoreAll_rxSum (k : Nat) (bs : List Byte) (r : RxUnit) : (rxStoreAll k bs r).rxSum = r.rxSum := rfl
@[simp] theorem rxStoreAll_rxSn (k : Nat) (bs : List Byte) (r : RxUnit) : (rxStoreAll k bs r).rxSn = r.rxSn := rfl
@[simp] theorem rxStoreAll_rxCommit (k : Nat) (bs : List Byte) (r : RxUnit) : (rxStoreAll k bs r).rxCommit = r.rxCommit := rfl
@[simp] theorem rxStoreAll_chkRx (k : Nat) (bs : List Byte) (r : RxUnit) : (rxStoreAll k bs r).chkRx = r.chkRx := rfl
@[simp] theorem rxStoreAll_chkCalc (k : Nat) (bs : List Byte) (r : RxUnit) : (rxStoreAll k bs r).chkCalc = r.chkCalc := rfl
@[simp] theorem rxStoreAll_chkSeen (k : Nat) (bs : List Byte) (r : RxUnit) : (rxStoreAll k bs r).chkSeen = r.chkSeen := rfl
@[simp] theorem rxStoreAll_chkMatch (k : Nat) (bs : List Byte) (r : RxUnit) : (rxStoreAll k bs r).chkMatch = r.chkMatch := rfl

@[simp] theorem cfAccepted_rxSt (f : CanFrame) (r : RxUnit) : (cfAccepted f r).rxSt = r.rxSt := rfl
@[simp] theorem cfAccepted_rxFam (f : CanFrame) (r : RxUnit) : (cfAccepted f r).rxFam = r.rxFam := rfl
@[simp] theorem cfAccepted_rxPhase (f : CanFrame) (r : RxUnit) : (cfAccepted f r).rxPhase = r.rxPhase := rfl
@[simp] theorem cfAccepted_rxBuf (f : CanFrame) (r : RxUnit) : (cfAccepted f r).rxBuf = Memory.writeList r.rxBuf r.rxIdx.toNat (f.slice 1 (owedBytes r)) := rfl
@[simp] theorem cfAccepted_rxExp (f : CanFrame) (r : RxUnit) : (cfAccepted f r).rxExp = r.rxExp := rfl
@[simp] theorem cfAccepted_rxIdx (f : CanFrame) (r : RxUnit) : (cfAccepted f r).rxIdx = r.rxIdx + BitVec.ofNat 12 (owedBytes r) := rfl
@[simp] theorem cfAccepted_rxSum (f : CanFrame) (r : RxUnit) : (cfAccepted f r).rxSum = r.rxSum := rfl
@[simp] theorem cfAccepted_rxSn (f : CanFrame) (r : RxUnit) : (cfAccepted f r).rxSn = r.rxSn + 1#4 := rfl
@[simp] theorem cfAccepted_rxCommit (f : CanFrame) (r : RxUnit) : (cfAccepted f r).rxCommit = r.rxCommit := rfl
@[simp] theorem cfAccepted_chkRx (f : CanFrame) (r : RxUnit) : (cfAccepted f r).chkRx = r.chkRx := rfl
@[simp] theorem cfAccepted_chkCalc (f : CanFrame) (r : RxUnit) : (cfAccepted f r).chkCalc = r.chkCalc := rfl
@[simp] theorem cfAccepted_chkSeen (f : CanFrame) (r : RxUnit) : (cfAccepted f r).chkSeen = r.chkSeen := rfl
@[simp] theorem cfAccepted_chkMatch (f : CanFrame) (r : RxUnit) : (cfAccepted f r).chkMatch = r.chkMatch := rfl

/-! ## Updates of the sticky flags -/

@[simp] theorem setIll_errIll (e : ErrFlags) : (setIll e).errIll = true := rfl
@[simp] theorem setIll_errHdx (e : ErrFlags) : (setIll e).errHdx = e.errHdx := rfl
@[simp] theorem setIll_errTxlen (e : ErrFlags) : (setIll e).errTxlen = e.errTxlen := rfl
@[simp] theorem setIll_errStray (e : ErrFlags) : (setIll e).errStray = e.errStray := rfl

@[simp] theorem setHdx_errIll (e : ErrFlags) : (setHdx e).errIll = e.errIll := rfl
@[simp] theorem setHdx_errHdx (e : ErrFlags) : (setHdx e).errHdx = true := rfl
@[simp] theorem setHdx_errTxlen (e : ErrFlags) : (setHdx e).errTxlen = e.errTxlen := rfl
@[simp] theorem setHdx_errStray (e : ErrFlags) : (setHdx e).errStray = e.errStray := rfl

@[simp] theorem setTxlen_errIll (e : ErrFlags) : (setTxlen e).errIll = e.errIll := rfl
@[simp] theorem setTxlen_errHdx (e : ErrFlags) : (setTxlen e).errHdx = e.errHdx := rfl
@[simp] theorem setTxlen_errTxlen (e : ErrFlags) : (setTxlen e).errTxlen = true := rfl
@[simp] theorem setTxlen_errStray (e : ErrFlags) : (setTxlen e).errStray = e.errStray := rfl

@[simp] theorem setStray_errIll (e : ErrFlags) : (setStray e).errIll = e.errIll := rfl
@[simp] theorem setStray_errHdx (e : ErrFlags) : (setStray e).errHdx = e.errHdx := rfl
@[simp] theorem setStray_errTxlen (e : ErrFlags) : (setStray e).errTxlen = e.errTxlen := rfl
@[simp] theorem setStray_errStray (e : ErrFlags) : (setStray e).errStray = true := rfl

@[simp] theorem clearedFlags_errIll : clearedFlags.errIll = false := rfl
@[simp] theorem clearedFlags_errHdx : clearedFlags.errHdx = false := rfl
@[simp] theorem clearedFlags_errTxlen : clearedFlags.errTxlen = false := rfl
@[simp] theorem clearedFlags_errStray : clearedFlags.errStray = false := rfl

@[simp] theorem errReset_errIll : errReset.errIll = false := rfl
@[simp] theorem errReset_errHdx : errReset.errHdx = false := rfl
@[simp] theorem errReset_errTxlen : errReset.errTxlen = false := rfl
@[simp] theorem errReset_errStray : errReset.errStray = false := rfl

/-! ## Inputs pushed and taken -/

@[simp] theorem setInputs_setInputs (s : State) (x y : List Event) : (s.setInputs x).setInputs y = s.setInputs y := rfl
@[simp] theorem setInputs_self (s : State) : s.setInputs s.inputs = s := rfl
@[simp] theorem pushInput_setInputs (s : State) (e : Event) : (s.pushInput e).setInputs s.inputs = s := rfl
@[simp] theorem txPayload_setInputs (s : State) (x : List Event) : (s.setInputs x).txPayload = s.txPayload := rfl
@[simp] theorem rxPayload_setInputs (s : State) (x : List Event) : (s.setInputs x).rxPayload = s.rxPayload := rfl

end Sys2Proof.Machine
end

