-- ==== Sys2Proof/Laws/Ops.lean ====
section
/-! SUPPORT. What each shared operation can do, said once: the cases a next state comes from. -/

namespace Sys2Proof.Machine

variable {s t : State}

/-- A transmit command sets `errHdx` while `BUSY`, else `errTxlen` for a bad length, else sends (R150). -/
theorem transmit_cases {lo hi : Nat} {sent : State} (h : transmit lo hi sent s = .next t) :
    (s.rx.rxSt = .busy ∧ t = s.rejectHdx) ∨
    (s.rx.rxSt ≠ .busy ∧ (s.tx.txLen.toNat < lo ∨ hi < s.tx.txLen.toNat) ∧ t = s.rejectTxlen) ∨
    (s.rx.rxSt ≠ .busy ∧ lo ≤ s.tx.txLen.toNat ∧ s.tx.txLen.toNat ≤ hi ∧ t = sent) := by
  unfold transmit at h
  split at h
  · exact .inl ⟨‹_›, by cases h; rfl⟩
  · split at h
    · exact .inr (.inl ⟨‹_›, ‹_›, by cases h; rfl⟩)
    · exact .inr (.inr ⟨‹_›, by omega, by omega, by cases h; rfl⟩)

/-- An arming command sets `errHdx` while `BUSY`, else arms (R181). -/
theorem armCommand_cases {fam : RxFam} {ph : RxPhase} {e : BitVec 12} (h : armCommand fam ph e s = .next t) :
    (s.rx.rxSt = .busy ∧ t = s.rejectHdx) ∨ (s.rx.rxSt ≠ .busy ∧ t = s.arm fam ph e) := by
  unfold armCommand at h
  split at h
  · exact .inl ⟨‹_›, by cases h; rfl⟩
  · exact .inr ⟨‹_›, by cases h; rfl⟩

/-- A count command with count 0 is an illegal word, else it is what it is (R93). -/
theorem withCount_cases {n : Byte} {legal : Result} (h : withCount n s legal = .next t) :
    (n = 0#8 ∧ t = s.illegal) ∨ (n ≠ 0#8 ∧ legal = .next t) := by
  unfold withCount at h
  split at h
  · exact .inl ⟨‹_›, by cases h; rfl⟩
  · exact .inr ⟨‹_›, h⟩

/-- A storing step that goes on stores inside the buffer (R65). -/
theorem storing_cases {r : RxUnit} (h : storing s r = .next t) :
    s.rx.rxIdx.toNat < Config.rxBufSize ∧ t = s.setRx r := by
  unfold storing at h
  split at h
  · exact ⟨‹_›, by cases h; rfl⟩
  · cases h

/-- A step takes the head of the inputs, or does nothing when there is none. -/
theorem step_cases (h : step s = .next t) :
    (s.inputs = [] ∧ t = s) ∨ ∃ e rest, s.inputs = e :: rest ∧ takeEvent e (s.setInputs rest) = .next t := by
  unfold step takeInput at h
  split at h
  · exact .inl ⟨‹_›, by cases h; rfl⟩
  · exact .inr ⟨_, _, ‹_›, h⟩

/-- A pushed input is the one the next step takes. -/
@[simp] theorem step_pushInput (s : State) (e : Event) : step (s.pushInput e) = takeEvent e s := rfl

/-- A host read that goes on records the register's value and changes nothing else (R60). -/
theorem hostRead_cases {off : BitVec 8} {bits : Nat} (h : hostRead off bits s = .next t) :
    ∃ r, accessedReg off bits = some r ∧ t = s.emitRead (regRead r s) := by
  unfold hostRead at h
  split at h
  · exact ⟨_, ‹_›, by cases h; rfl⟩
  · cases h

/-- A host write that goes on reaches a register (R60). -/
theorem hostWrite_cases {off : BitVec 8} {bits : Nat} {v : Word} (h : hostWrite off bits v s = .next t) :
    ∃ r, accessedReg off bits = some r ∧ regWrite r v s = .next t := by
  unfold hostWrite at h
  split at h
  · exact ⟨_, ‹_›, h⟩
  · cases h

/-- A command word runs its command, or sets `errIll` (R40, R273). -/
theorem runWord_cases {v : Word} (h : runWord v s = .next t) :
    (∃ i, decode v = .command i ∧ exec i s = .next t) ∨ (∃ why, decode v = .illegal why ∧ t = s.illegal) := by
  unfold runWord at h
  split at h
  · exact .inl ⟨_, ‹_›, h⟩
  · exact .inr ⟨_, ‹_›, by cases h; rfl⟩

/-- A timeout ends a `BUSY` receive, else does nothing (R207). -/
theorem timeoutInput_cases (h : timeoutInput s = .next t) :
    (s.rx.rxSt = .busy ∧ t = s.complete (if notStarted s.rx then .timeout else .short)) ∨
    (s.rx.rxSt ≠ .busy ∧ t = s) := by
  unfold timeoutInput at h
  split at h
  · exact .inl ⟨‹_›, by cases h; rfl⟩
  · exact .inr ⟨‹_›, by cases h; rfl⟩

/-- A serial byte is stray, or goes to the parser the phase selects (R188). -/
theorem serialInput_cases {b : Byte} (h : serialInput b s = .next t) :
    ((s.rx.rxSt ≠ .busy ∨ s.rx.rxFam = .isotp) ∧ t = s.stray) ∨
    (s.rx.rxSt = .busy ∧ s.rx.rxFam ≠ .isotp ∧ serialByPhase b s = .next t) := by
  unfold serialInput at h
  split at h
  · exact .inl ⟨‹_›, by cases h; rfl⟩
  · rename_i hn
    simp only [ne_eq, not_or, Decidable.not_not] at hn
    exact .inr ⟨hn.1, hn.2, h⟩

/-- A CAN frame is ignored, stray, or goes to the reassembler (R232, R233). -/
theorem canInput_cases {f : CanFrame} (h : canInput f s = .next t) :
    (f.id ≠ s.can.respId ∧ t = s) ∨
    (f.id = s.can.respId ∧ (s.rx.rxSt ≠ .busy ∨ s.rx.rxFam ∈ [.bosch, .denso, .raw]) ∧ t = s.stray) ∨
    (f.id = s.can.respId ∧ s.rx.rxSt = .busy ∧ s.rx.rxFam = .isotp ∧ canByPhase f s = .next t) := by
  unfold canInput canAccepted at h
  split at h
  · split at h
    · exact .inr (.inl ⟨‹_›, .inl ‹_›, by cases h; rfl⟩)
    · rename_i hid hb
      simp only [ne_eq, Decidable.not_not] at hb
      split at h
      · exact .inr (.inr ⟨hid, hb, ‹_›, h⟩)
      all_goals first | cases h; done | (refine .inr (.inl ⟨hid, .inr ?_, by cases h; rfl⟩); simp_all)
  · exact .inl ⟨‹_›, by cases h; rfl⟩

end Sys2Proof.Machine
end

