-- ==== Sys2Proof/Laws/PerInstr.lean ====
section
/-! SUPPORT. Families of statements made per command: one lemma for each constructor of Instr. -/

namespace Sys2Proof

/-- The `Z` field of a command word built from its opcode and operand is 0 (30_encoding.md R90). -/
theorem zField_commandWord (op imm : Byte) : zField (commandWord op imm) = 0#16 := by
  apply BitVec.eq_of_getLsbD_eq
  intro i hi
  simp only [zField, commandWord, BitVec.getLsbD_extractLsb', BitVec.getLsbD_append]
  simp [show ¬ (16 + i < 8) by omega, show ¬ (16 + i - 8 < 8) by omega]

end Sys2Proof

namespace Sys2Proof.Laws.EncodedZFieldIsZero

/-- The `Z` field of every command's word is 0 (30_encoding.md R90, R93 case 1). -/
def Statement (i : Instr) : Prop := zField (encode i) = 0#16

theorem nop : Statement .nop := zField_commandWord _ _
theorem srst : Statement .srst := zField_commandWord _ _
theorem clrErr : Statement .clrErr := zField_commandWord _ _
theorem ckInit : Statement .ckInit := zField_commandWord _ _
theorem ckFeed (b : Byte) : Statement (.ckFeed b) := zField_commandWord _ _
theorem ckFeedTx : Statement .ckFeedTx := zField_commandWord _ _
theorem ckFeedRx : Statement .ckFeedRx := zField_commandWord _ _
theorem txClr : Statement .txClr := zField_commandWord _ _
theorem txPush (b : Byte) : Statement (.txPush b) := zField_commandWord _ _
theorem txRaw : Statement .txRaw := zField_commandWord _ _
theorem txRawB : Statement .txRawB := zField_commandWord _ _
theorem txRawD : Statement .txRawD := zField_commandWord _ _
theorem txRawC (n : Byte) : Statement (.txRawC n) := zField_commandWord _ _
theorem txBosch : Statement .txBosch := zField_commandWord _ _
theorem txDenso : Statement .txDenso := zField_commandWord _ _
theorem txIsotpSf : Statement .txIsotpSf := zField_commandWord _ _
theorem rxArmB : Statement .rxArmB := zField_commandWord _ _
theorem rxArmD : Statement .rxArmD := zField_commandWord _ _
theorem rxArmI : Statement .rxArmI := zField_commandWord _ _
theorem rxCap (n : Byte) : Statement (.rxCap n) := zField_commandWord _ _
theorem rxCancel : Statement .rxCancel := zField_commandWord _ _

end Sys2Proof.Laws.EncodedZFieldIsZero
end

