-- ==== Sys2Proof/Tests/Slice0.lean ====
section
/-! SUPPORT. The model's own tests, each expected result taken from spec/ (the vector or example named in the comment),
and for every statement with hypotheses a state and operands that meet them together. -/

open Sys2Proof Sys2Proof.Machine

namespace Sys2Proof.Tests

/-! ## WellFormed: each check refuses an ill-formed term (30_encoding.md R93 case 4) -/

theorem test_wellFormed_refuses_txRawC_zero : wellFormed (.txRawC 0#8) = false := by decide
theorem test_wellFormed_refuses_rxCap_zero : wellFormed (.rxCap 0#8) = false := by decide
theorem test_wellFormed_takes_counts : wellFormed (.txRawC 1#8) = true ∧ wellFormed (.rxCap 255#8) = true := by decide

/-! ## Decoding: words written out from 30_encoding.md R92 and R104 -/

theorem test_decode_nop : decodeTableWord 32 0x00000000 = some .nop := by decide
theorem test_decode_srst : decodeTableWord 32 0x00000100 = some .srst := by decide
theorem test_decode_clrErr : decodeTableWord 32 0x00000200 = some .clrErr := by decide
theorem test_decode_ckInit : decodeTableWord 32 0x00001000 = some .ckInit := by decide
theorem test_decode_ckFeed : decodeTableWord 32 0x00001112 = some (.ckFeed 0x12#8) := by decide
theorem test_decode_ckFeedTx : decodeTableWord 32 0x00001200 = some .ckFeedTx := by decide
theorem test_decode_ckFeedRx : decodeTableWord 32 0x00001300 = some .ckFeedRx := by decide
theorem test_decode_txClr : decodeTableWord 32 0x00002000 = some .txClr := by decide
theorem test_decode_txPush : decodeTableWord 32 0x000021F7 = some (.txPush 0xF7#8) := by decide
theorem test_decode_txRaw : decodeTableWord 32 0x00002200 = some .txRaw := by decide
theorem test_decode_txRawB : decodeTableWord 32 0x00002300 = some .txRawB := by decide
theorem test_decode_txRawD : decodeTableWord 32 0x00002400 = some .txRawD := by decide
theorem test_decode_txRawC : decodeTableWord 32 0x00002503 = some (.txRawC 3#8) := by decide
theorem test_decode_txBosch : decodeTableWord 32 0x00002800 = some .txBosch := by decide
theorem test_decode_txDenso : decodeTableWord 32 0x00002900 = some .txDenso := by decide
theorem test_decode_txIsotpSf : decodeTableWord 32 0x00002A00 = some .txIsotpSf := by decide
theorem test_decode_rxArmB : decodeTableWord 32 0x00003000 = some .rxArmB := by decide
theorem test_decode_rxArmD : decodeTableWord 32 0x00003100 = some .rxArmD := by decide
theorem test_decode_rxArmI : decodeTableWord 32 0x00003200 = some .rxArmI := by decide
theorem test_decode_rxCap : decodeTableWord 32 0x000033FF = some (.rxCap 255#8) := by decide
theorem test_decode_rxCancel : decodeTableWord 32 0x00003F00 = some .rxCancel := by decide

/-- E2, E3, F20, F21, F22 of 95_test_vectors.md: the four kinds of illegal word. -/
theorem test_decode_illegal :
    decode 0x00000001#32 = .illegal .operand ∧ decode 0x00004000#32 = .illegal .opcode ∧
    decode 0x00002801#32 = .illegal .operand ∧ decode 0x00002500#32 = .illegal .zeroCount ∧
    decode 0x00012800#32 = .illegal .zField := by decide

/-- A placed word is the command the next step runs. -/
theorem test_withFetchWord_runs :
    step (State.reset.withFetchWord 32 0x00003000) = exec .rxArmB State.reset := by rfl

/-! ## One step or a short exchange from reset; the vector's name is that of 95_test_vectors.md -/

/-- The state after the inputs `es` from reset, if no step stops. -/
def after (es : List Event) : Option State :=
  match runInputs State.reset es with
  | .next t => some t
  | .fault _ => none
  | .refused _ => none

/-- The commands `is` one after another. -/
def cmds (is : List Instr) : List Event := commandEvents is

/-- A register of the state after the inputs `es` from reset. -/
def shown (r : HostReg) (es : List Event) : Option Word := (after es).map (regRead r)

/-- E1. -/
theorem test_nop : after (cmds [.nop]) = some State.reset := by decide +kernel
/-- E6. -/
theorem test_srst_abandons : shown .status (cmds [.rxArmB] ++ serialEvents [0x02#8] ++ cmds [.srst]) = some 0#32 := by
  decide +kernel
/-- Q6. -/
theorem test_clrErr : shown .status (serialEvents [0x23#8] ++ cmds [.clrErr]) = some 0#32 := by decide +kernel
/-- K22: `CK_INIT` loads INIT. -/
theorem test_ckInit_loads_init :
    shown .ckResult (.hostWrite 0x0C#8 32 0x0000FF07#32 :: cmds [.ckInit]) = some 0xFF000000#32 := by decide +kernel
/-- K2. -/
theorem test_ckFeed : shown .ckResult (cmds [.ckInit, .ckFeed 0x01#8]) = some 0x0701FF01#32 := by decide +kernel
/-- K18: reflected input and output. -/
theorem test_ckFeed_reflected :
    shown .ckResult (.hostWrite 0x0C#8 32 0x03000031#32 ::
      cmds (.ckInit :: [0x31#8, 0x32#8, 0x33#8, 0x34#8, 0x35#8, 0x36#8, 0x37#8, 0x38#8, 0x39#8].map .ckFeed)) =
      some 0xA13123DD#32 := by decide +kernel
/-- K23. -/
theorem test_ckFeedTx :
    shown .ckResult (cmds (loadCommands [0x23#8, 0x10#8, 0x00#8] ++ [.ckInit, .ckFeedTx])) = some 0xA933CD33#32 := by
  decide +kernel
/-- K25. -/
theorem test_ckFeedRx :
    shown .ckResult (cmds [.rxArmB] ++ serialEvents [0x02#8, 0x63#8, 0xAA#8, 0x0F#8] ++ cmds [.ckInit, .ckFeedRx]) =
      some 0x95C9F30D#32 := by decide +kernel
/-- F23. -/
theorem test_txClr : shown .txLen (cmds [.txPush 0x23#8, .txClr]) = some 0#32 := by decide +kernel
/-- R152's example. -/
theorem test_txPush : (after (cmds [.txClr, .txPush 0x23#8])).map (fun t => (t.tx.txLen, Memory.read t.tx.txBuf 0)) =
    some (1#8, 0x23#8) := by decide +kernel
/-- F19: a full buffer refuses a push. -/
theorem test_txPush_full :
    exec (.txPush 0x07#8) { State.reset with tx := { txBuf := [], txLen := 255#8 } } =
      .next { State.reset with tx := { txBuf := [], txLen := 255#8 }, err := { errReset with errTxlen := true } } := by
  rfl
/-- F12. -/
theorem test_txRaw : (after (cmds (loadCommands [0x33#8] ++ [.txRaw]))).map (fun t => (t.serialOut, regRead .status t)) =
    some ([0x33#8], 0#32) := by decide +kernel
/-- F14. -/
theorem test_txRawB :
    (after (cmds (loadCommands [0x81#8] ++ [.txRawB]))).map (fun t => (t.serialOut, regRead .status t)) =
      some ([0x81#8], 0x00000111#32) := by decide +kernel
/-- F15. -/
theorem test_txRawD :
    (after (cmds (loadCommands [0x55#8] ++ [.txRawD]))).map (fun t => (t.serialOut, regRead .status t)) =
      some ([0x55#8], 0x00000421#32) := by decide +kernel
/-- F16. -/
theorem test_txRawC :
    (after (cmds (loadCommands [0x33#8] ++ [.txRawC 3#8]) ++ serialEvents [0x55#8, 0x08#8, 0x08#8])).map
      (fun t => (t.serialOut, regRead .status t, t.rxPayload)) =
      some ([0x33#8], 0x00000042#32, [0x55#8, 0x08#8, 0x08#8]) := by decide +kernel
/-- F1. -/
theorem test_txBosch :
    (after (cmds (loadCommands [0x23#8, 0x10#8, 0x00#8] ++ [.txBosch]))).map (fun t => (t.serialOut, regRead .status t)) =
      some ([0x03#8, 0x23#8, 0x10#8, 0x00#8, 0x36#8], 0x00000111#32) := by decide +kernel
/-- F18: half-duplex is checked before the length. -/
theorem test_txBosch_busy_first : shown .status (cmds [.rxArmB, .txClr, .txBosch]) = some 0x00002111#32 := by
  decide +kernel
/-- F4. -/
theorem test_txDenso :
    (after (cmds (loadCommands [0x10#8, 0x00#8, 0x10#8, 0x00#8, 0x04#8] ++ [.txDenso]))).map (fun t => t.serialOut) =
      some [0x02#8, 0x05#8, 0x10#8, 0x00#8, 0x10#8, 0x00#8, 0x04#8, 0xDC#8, 0x03#8] := by decide +kernel
/-- F5: an empty payload. -/
theorem test_txDenso_empty :
    (after (cmds [.txDenso])).map (fun t => t.serialOut) = some [0x02#8, 0x00#8, 0x00#8, 0x03#8] := by decide +kernel
/-- F7. -/
theorem test_txIsotpSf :
    (after (cmds (loadCommands [0x22#8, 0xF1#8, 0x90#8] ++ [.txIsotpSf]))).map (fun t => t.canOut) =
      some [{ id := 0x7E0#11, dlc := 8, d0 := 0x03#8, d1 := 0x22#8, d2 := 0xF1#8, d3 := 0x90#8, d4 := 0#8, d5 := 0#8,
              d6 := 0#8, d7 := 0#8 }] := by decide +kernel
/-- F9: 8 bytes are refused. -/
theorem test_txIsotpSf_too_long :
    shown .status (cmds (loadCommands [1#8, 2#8, 3#8, 4#8, 5#8, 6#8, 7#8, 8#8] ++ [.txIsotpSf])) = some 0x00004000#32 := by
  decide +kernel
/-- R184's example, and Q8. -/
theorem test_rxArmB : shown .status (cmds [.rxArmB]) = some 0x00000111#32 ∧
    shown .status (cmds [.rxArmB, .rxArmD]) = some 0x00002111#32 := by decide +kernel
/-- R185's example. -/
theorem test_rxArmD : shown .status (cmds [.rxArmD]) = some 0x00000421#32 := by decide +kernel
/-- R231's example. -/
theorem test_rxArmI : shown .status (cmds [.rxArmI]) = some 0x00000931#32 := by decide +kernel
/-- RC1. -/
theorem test_rxCap : shown .status (cmds [.rxCap 2#8]) = some 0x00000B41#32 ∧
    shown .rxProg (cmds [.rxCap 2#8]) = some 0x00020000#32 := by decide +kernel
/-- Q1, Q3. -/
theorem test_rxCancel : shown .status (cmds [.rxArmB, .rxCancel]) = some 0x00000019#32 ∧
    shown .status (cmds [.rxCancel]) = some 0#32 := by decide +kernel

/-- B1. -/
theorem test_bosch_ok :
    (after (cmds [.rxArmB] ++ serialEvents [0x02#8, 0x63#8, 0xAA#8, 0x0F#8])).map
      (fun t => (regRead .status t, regRead .rxInfo t, regRead .rxProg t, t.rxPayload)) =
      some (0x00000012#32, 0x030F0F63#32, 0x00020002#32, [0x63#8, 0xAA#8]) := by decide +kernel
/-- B2. -/
theorem test_bosch_chkErr :
    (after (cmds [.rxArmB] ++ serialEvents [0x02#8, 0x63#8, 0xAA#8, 0x00#8])).map
      (fun t => (regRead .status t, regRead .rxInfo t, t.rxPayload)) =
      some (0x00000016#32, 0x010F0000#32, []) := by decide +kernel
/-- B7. -/
theorem test_bosch_short : shown .status (cmds [.rxArmB] ++ serialEvents [0x02#8, 0x63#8] ++ [.timer]) =
    some 0x00000015#32 := by decide +kernel
/-- DN1. -/
theorem test_denso_ok :
    (after (cmds [.rxArmD] ++
      serialEvents [0xFF#8, 0x55#8, 0x02#8, 0x04#8, 0x50#8, 0x01#8, 0x02#8, 0x03#8, 0xAA#8, 0x03#8])).map
      (fun t => (regRead .status t, regRead .rxInfo t, t.rxPayload)) =
      some (0x00000022#32, 0x03AAAA50#32, [0x50#8, 0x01#8, 0x02#8, 0x03#8]) := by decide +kernel
/-- DN4: a bad `ETX` wins. -/
theorem test_denso_frameErr_wins :
    shown .status (cmds [.rxArmD] ++ serialEvents [0x02#8, 0x01#8, 0x10#8, 0xEF#8, 0x04#8]) = some 0x00000027#32 := by
  decide +kernel
/-- RC3, RC4. -/
theorem test_capture_timeout : shown .status (cmds [.rxCap 3#8] ++ [.timer]) = some 0x00000044#32 ∧
    shown .status (cmds [.rxCap 3#8] ++ serialEvents [0x55#8] ++ [.timer]) = some 0x00000045#32 := by decide +kernel
/-- I16. -/
theorem test_isotp_two_frames :
    (after (cmds [.rxArmI] ++ canEvents [
      canFrameOf 0x7E8#11 8 [0x10#8, 0x0A#8, 0x62#8, 0xF1#8, 0x90#8, 0x57#8, 0x30#8, 0x4C#8],
      canFrameOf 0x7E8#11 8 [0x21#8, 0x53#8, 0x45#8, 0x52#8]])).map
      (fun t => (regRead .status t, regRead .rxProg t, t.rxPayload, t.canOut.length)) =
      some (0x00000032#32, 0x200A000A#32,
        [0x62#8, 0xF1#8, 0x90#8, 0x57#8, 0x30#8, 0x4C#8, 0x53#8, 0x45#8, 0x52#8, 0x00#8], 1) := by decide +kernel
/-- I21. -/
theorem test_isotp_seqErr :
    shown .status (cmds [.rxArmI] ++ canEvents [
      canFrameOf 0x7E8#11 8 [0x10#8, 0x14#8, 0x41#8, 0x42#8, 0x43#8, 0x44#8, 0x45#8, 0x46#8],
      canFrameOf 0x7E8#11 8 [0x22#8]]) = some 0x00000038#32 := by decide +kernel
/-- I6, I5, I8: `dlc` at and below the least a single frame needs. -/
theorem test_isotp_single_dlc :
    shown .status (cmds [.rxArmI] ++ canEvents [canFrameOf 0x7E8#11 4 [0x03#8, 0x62#8, 0xF1#8, 0x90#8]]) =
      some 0x00000032#32 ∧
    shown .status (cmds [.rxArmI] ++ canEvents [canFrameOf 0x7E8#11 3 [0x03#8, 0x62#8, 0xF1#8]]) =
      some 0x00000037#32 ∧
    shown .status (cmds [.rxArmI] ++ canEvents [canFrameOf 0x7E8#11 0 []]) = some 0x00000037#32 := by decide +kernel
/-- E8, E9, PT4: reserved bits. -/
theorem test_reserved_bits :
    shown .crcCfg [.hostWrite 0x0C#8 32 0xFFFFFFFF#32] = some 0x03FFFFFF#32 ∧
    shown .canId [.hostWrite 0x10#8 32 0xFFFFFFFF#32] = some 0x07FF07FF#32 ∧
    shown .rxPtr [.hostWrite 0x20#8 32 0x00001001#32] = some 0x00000001#32 := by decide +kernel
/-- E12, E13, E14, E15. -/
theorem test_busError :
    onInput State.reset (.hostRead 0x2C#8 32) = .fault .busError ∧
    onInput State.reset (.hostRead 0x06#8 32) = .fault .busError ∧
    onInput State.reset (.hostRead 0x04#8 8) = .fault .busError ∧
    onInput State.reset (.hostWrite 0x30#8 32 0#32) = .fault .busError := ⟨rfl, rfl, rfl, rfl⟩
/-- E11: a read of `CMD`. -/
theorem test_read_cmd : (after [.hostRead 0x00#8 32]).map (fun t => t.hostReads) = some [0#32] := by decide +kernel
/-- 20_memory.md R71: a platform address in the window, and one beyond it. -/
theorem test_window : windowOffset 0x4000 0x4028 = some 0x28#8 ∧ windowOffset 0x4000 0x4100 = none := by decide
/-- P1's listing assembles, and its reads return the values it shows. -/
theorem test_program_P1 :
    let ls : List AsmLine := [.wr .crcCfg 0x00FFFF1D#32,
      .txLoad [0x31#8, 0x32#8, 0x33#8, 0x34#8, 0x35#8, 0x36#8, 0x37#8, 0x38#8, 0x39#8], .command .ckInit,
      .command .ckFeedTx, .rd .ckResult 0x4B3123DD#32, .wr .crcCfg 0x00000007#32, .command .ckInit, .command .ckFeedTx,
      .rd .ckResult 0xF43123DD#32, .command (.ckFeed 0xF4#8), .rd .ckResult 0x00C52FD1#32, .rd .txLen 0x00000009#32]
    ((assemble ls).bind after).map (fun t => t.hostReads) = some (expectedReads ls) := by decide +kernel
/-- A line's text: R104's example. -/
theorem test_text_operand : commandText (.txRawC 3#8) = "TX_RAW_C 3" := by decide +kernel

/-! ## Witnesses: for every statement with hypotheses, a state and operands that meet them -/

/-- A receiver armed for family `fam`, in phase `ph`, with `i` of `e` bytes stored. -/
def armed (fam : RxFam) (ph : RxPhase) (i e : BitVec 12) : State :=
  { State.reset with rx := { rxArm fam ph e rxReset with rxIdx := i } }

/-- A Denso receiver waiting for `ETX`, its checksum byte seen. -/
def atEtx : State :=
  { State.reset with rx := { rxArm .denso .dEtx 1#12 rxReset with rxIdx := 1#12, chkSeen := true, chkMatch := true } }

/-- A completed Bosch receive of the one byte 7F (vector B9). -/
def completed : State :=
  { State.reset with rx := { rxReset with
      rxSt := .ok, rxFam := .bosch, rxBuf := [(0, 0x7F#8)], rxExp := 1#12, rxIdx := 1#12, rxCommit := 1#12,
      rxSum := 0x80#8, chkRx := 0x80#8, chkCalc := 0x80#8, chkSeen := true, chkMatch := true } }

/-- A frame on the reset `respId` with the given `dlc`, `d0` and `d1`. -/
def onResp (dlc : Fin 9) (d0 d1 : Byte) : CanFrame := canFrameOf 0x7E8#11 dlc [d0, d1]

theorem witness_DecodeReadsTheOpcodeMap : (1#8 : Byte) ≠ 0#8 ∧ (255#8 : Byte) ≠ 0#8 := by decide
theorem witness_DecodeOfEncodeIsTheCommand : wellFormed (.txRawC 255#8) = true ∧ wellFormed (.rxCap 1#8) = true := by
  decide
theorem witness_IllegalWordsSetErrIllOnly : ∃ why, decode 0x00010000#32 = .illegal why := ⟨.zField, by decide⟩
theorem witness_IllegalWordsSetErrIllOnly_opcode : ∃ why, decode 0x00000300#32 = .illegal why := ⟨.opcode, by decide⟩
theorem witness_StepRunsTheDecodedCommand_write :
    (State.reset.pushInput (.hostWrite 0x00#8 32 0x3000#32)).inputs = .hostWrite 0x00#8 32 0x3000#32 :: [] ∧
    decode 0x3000#32 = .command .rxArmB := by decide
theorem witness_StepRunsTheDecodedCommand_read :
    (State.reset.pushInput (.hostRead 0x00#8 32)).inputs = .hostRead 0x00#8 32 :: [] := by decide
theorem witness_ModelInputListConventions : State.reset.inputs = [] ∧ decodeTableWord 32 0x3F00 = some .rxCancel := by
  decide
theorem witness_CkFeedOfABufferFeedsItsPayload : State.reset.tx.txLen = 0#8 ∧ State.reset.rx.rxCommit = 0#12 := by decide
theorem witness_FrameChecksumsAreCkResultFields : ([] : List Byte).length ≤ 255 ∧
    (List.replicate 255 (1#8 : Byte)).length ≤ 255 := by decide +kernel
theorem witness_ChecksumLaws_residue : crcReset.crcRefin = false ∧ crcReset.crcRefout = false ∧
    crcReset.crcXorout = 0#8 := by decide
theorem witness_ChecksumLaws_change : (1#8 : Byte) ≠ 0#8 ∧ crcReset.crcPoly.getLsbD 0 = true := by decide
theorem witness_ChecksumLaws_order : [1#8, (2#8 : Byte)].Perm [2#8, 1#8] := List.Perm.swap _ _ _
theorem witness_TxPushAppendsOrRefuses_full :
    ({ State.reset with tx := { txBuf := [], txLen := 255#8 } } : State).tx.txLen = 255#8 := by decide
theorem witness_TxPushAppendsOrRefuses_append :
    ({ State.reset with tx := { txBuf := [(253, 1#8)], txLen := 254#8 } } : State).tx.txLen ≠ 255#8 ∧
    Memory.wf 255 [(253, 1#8)] = true := by decide
theorem witness_RawTransmitSendsTheBuffer_busy : (armed .bosch .bLen 0#12 0#12).rx.rxSt = .busy ∧
    Instr.txRawD ∈ [Instr.txRaw, .txRawB, .txRawD] ∧ ∃ n : Byte, n ≠ 0#8 ∧ Instr.txRawC 1#8 = .txRawC n :=
  ⟨by decide, by decide, 1#8, by decide, rfl⟩
theorem witness_RawTransmitSendsTheBuffer_sends : State.reset.rx.rxSt ≠ .busy ∧ (255#8 : Byte) ≠ 0#8 := by decide
theorem witness_TxBoschSendsABoschFrame_empty : State.reset.rx.rxSt ≠ .busy ∧ State.reset.tx.txLen = 0#8 := by decide
theorem witness_TxBoschSendsABoschFrame_sends :
    ({ State.reset with tx := { txBuf := [], txLen := 1#8 } } : State).rx.rxSt ≠ .busy ∧
    ({ State.reset with tx := { txBuf := [], txLen := 1#8 } } : State).tx.txLen ≠ 0#8 := by decide
theorem witness_TxBoschSendsABoschFrame_busy : (armed .isotp .iFirst 0#12 0#12).rx.rxSt = .busy := by decide
theorem witness_TxDensoSendsADensoFrame : (armed .denso .dHunt 0#12 0#12).rx.rxSt = .busy ∧
    State.reset.rx.rxSt ≠ .busy := by decide
theorem witness_TxIsotpSfSendsASingleFrame_busy : (armed .raw .rCap 0#12 1#12).rx.rxSt = .busy := by decide
theorem witness_TxIsotpSfSendsASingleFrame_refused : State.reset.rx.rxSt ≠ .busy ∧ State.reset.tx.txLen.toNat = 0 ∧
    7 < ({ State.reset with tx := { txBuf := [], txLen := 8#8 } } : State).tx.txLen.toNat := by decide
theorem witness_TxIsotpSfSendsASingleFrame_sends :
    let s : State := { State.reset with tx := { txBuf := [], txLen := 7#8 } }
    s.rx.rxSt ≠ .busy ∧ 1 ≤ s.tx.txLen.toNat ∧ s.tx.txLen.toNat ≤ 7 := by decide
theorem witness_RefusedCommandsSetOneFlagOnly_busy : (armed .bosch .bLen 0#12 0#12).rx.rxSt = .busy ∧
    (Instr.rxArmI ∈ [Instr.txRaw, .txRawB, .txRawD, .txBosch, .txDenso, .txIsotpSf, .rxArmB, .rxArmD, .rxArmI] ∨
      ∃ n : Byte, n ≠ 0#8 ∧ (Instr.rxArmI = .txRawC n ∨ Instr.rxArmI = .rxCap n)) := ⟨by decide, .inl (by decide)⟩
theorem witness_RefusedCommandsSetOneFlagOnly_push :
    (∃ b : Byte, Instr.txPush 7#8 = .txPush b) ∧
    ({ State.reset with tx := { txBuf := [], txLen := 255#8 } } : State).tx.txLen = 255#8 := ⟨⟨7#8, rfl⟩, by decide⟩
theorem witness_RefusedCommandsSetOneFlagOnly_length :
    Instr.txIsotpSf = .txIsotpSf ∧ State.reset.rx.rxSt ≠ .busy ∧
    (State.reset.tx.txLen = 0#8 ∨ 7#8 < State.reset.tx.txLen) ∧ Instr.txBosch = .txBosch := by decide
theorem witness_ArmingCommandsStartAReceive_busy : (armed .bosch .bBody 0#12 1#12).rx.rxSt = .busy ∧
    (Instr.rxArmI ∈ [Instr.rxArmB, .rxArmD, .rxArmI] ∨ ∃ n : Byte, n ≠ 0#8 ∧ Instr.rxArmI = .rxCap n) :=
  ⟨by decide, .inl (by decide)⟩
theorem witness_ArmingCommandsStartAReceive_arms : completed.rx.rxSt ≠ .busy ∧ (1#8 : Byte) ≠ 0#8 := by decide
theorem witness_RxCancelEndsABusyReceive : atEtx.rx.rxSt = .busy ∧ completed.rx.rxSt ≠ .busy := by decide
theorem witness_TimeoutEndsABusyReceive_timeout :
    (armed .raw .rCap 0#12 1#12).rx.rxSt = .busy ∧
    ((armed .raw .rCap 0#12 1#12).rx.rxPhase ∈ [.bLen, .dHunt, .iFirst] ∨
      ((armed .raw .rCap 0#12 1#12).rx.rxPhase = .rCap ∧ (armed .raw .rCap 0#12 1#12).rx.rxIdx = 0#12)) := by decide
theorem witness_TimeoutEndsABusyReceive_short :
    (armed .raw .rCap 1#12 2#12).rx.rxSt = .busy ∧
    ¬ ((armed .raw .rCap 1#12 2#12).rx.rxPhase ∈ [.bLen, .dHunt, .iFirst] ∨
      ((armed .raw .rCap 1#12 2#12).rx.rxPhase = .rCap ∧ (armed .raw .rCap 1#12 2#12).rx.rxIdx = 0#12)) := by decide
theorem witness_TimeoutEndsABusyReceive_idle : State.reset.rx.rxSt ≠ .busy := by decide
theorem witness_StrayInputIsDropped_serial : (State.reset.rx.rxSt ≠ .busy) ∧
    (armed .isotp .iFirst 0#12 0#12).rx.rxFam = .isotp := by decide
theorem witness_StrayInputIsDropped_can : (onResp 0 0#8 0#8).id = State.reset.can.respId ∧
    ((armed .raw .rCap 0#12 1#12).rx.rxSt ≠ .busy ∨ (armed .raw .rCap 0#12 1#12).rx.rxFam ∈ [.bosch, .denso, .raw]) := by
  decide
theorem witness_BoschReceiveByPhase_len : Inv (armed .bosch .bLen 0#12 0#12) ∧
    (armed .bosch .bLen 0#12 0#12).rx.rxPhase = .bLen ∧ (255#8 : Byte) ≠ 0#8 := ⟨by decide, by decide⟩
theorem witness_BoschReceiveByPhase_body : Inv (armed .bosch .bBody 254#12 255#12) ∧
    (armed .bosch .bBody 254#12 255#12).rx.rxPhase = .bBody := ⟨by decide, by decide⟩
theorem witness_BoschReceiveByPhase_chk : Inv (armed .bosch .bChk 1#12 1#12) ∧
    (armed .bosch .bChk 1#12 1#12).rx.rxPhase = .bChk := ⟨by decide, by decide⟩
theorem witness_DensoReceiveByPhase_hunt : Inv (armed .denso .dHunt 0#12 0#12) ∧
    (armed .denso .dHunt 0#12 0#12).rx.rxPhase = .dHunt ∧ (0x03#8 : Byte) ≠ 0x02#8 := ⟨by decide, by decide⟩
theorem witness_DensoReceiveByPhase_len : Inv (armed .denso .dLen 0#12 0#12) ∧
    (armed .denso .dLen 0#12 0#12).rx.rxPhase = .dLen := ⟨by decide, by decide⟩
theorem witness_DensoReceiveByPhase_body : Inv (armed .denso .dBody 0#12 255#12) ∧
    (armed .denso .dBody 0#12 255#12).rx.rxPhase = .dBody := ⟨by decide, by decide⟩
theorem witness_DensoReceiveByPhase_chk : Inv (armed .denso .dChk 0#12 0#12) ∧
    (armed .denso .dChk 0#12 0#12).rx.rxPhase = .dChk := ⟨by decide, by decide⟩
theorem witness_DensoReceiveByPhase_etx : Inv atEtx ∧ atEtx.rx.rxPhase = .dEtx := ⟨by decide, by decide⟩
theorem witness_RawCaptureStoresBytes : Inv (armed .raw .rCap 254#12 255#12) ∧
    (armed .raw .rCap 254#12 255#12).rx.rxPhase = .rCap ∧
    (armed .raw .rCap 254#12 255#12).rx.rxIdx.toNat + 1 = (armed .raw .rCap 254#12 255#12).rx.rxExp.toNat := ⟨by decide, by decide⟩
theorem witness_RawCaptureStoresBytes_more : Inv (armed .raw .rCap 253#12 255#12) ∧
    (armed .raw .rCap 253#12 255#12).rx.rxPhase = .rCap ∧
    (armed .raw .rCap 253#12 255#12).rx.rxIdx.toNat + 1 ≠ (armed .raw .rCap 253#12 255#12).rx.rxExp.toNat := ⟨by decide, by decide⟩
theorem witness_CanFramesIgnoredOrMalformed_other : (canFrameOf 0x7E9#11 8 []).id ≠ State.reset.can.respId := by decide
theorem witness_CanFramesIgnoredOrMalformed_dlc0 : Inv (armed .isotp .iCf 6#12 8#12) ∧
    (onResp 0 0#8 0#8).id = (armed .isotp .iCf 6#12 8#12).can.respId ∧
    (armed .isotp .iCf 6#12 8#12).rx.rxPhase ∈ [.iFirst, .iCf] ∧ (onResp 0 0#8 0#8).dlc.val = 0 := ⟨by decide, by decide⟩
theorem witness_CanFramesIgnoredOrMalformed_first : Inv (armed .isotp .iFirst 0#12 0#12) ∧
    (onResp 1 0x2F#8 0#8).id = (armed .isotp .iFirst 0#12 0#12).can.respId ∧
    (armed .isotp .iFirst 0#12 0#12).rx.rxPhase = .iFirst ∧ (onResp 1 0x2F#8 0#8).dlc.val ≠ 0 ∧
    (onResp 1 0x2F#8 0#8).d0.toNat / 16 = 2 ∧ (onResp 1 0x30#8 0#8).d0.toNat / 16 = 3 ∧
    4 ≤ (onResp 1 0x40#8 0#8).d0.toNat / 16 := ⟨by decide, by decide⟩
theorem witness_CanFramesIgnoredOrMalformed_cf : Inv (armed .isotp .iCf 6#12 8#12) ∧
    (onResp 1 0x3F#8 0#8).id = (armed .isotp .iCf 6#12 8#12).can.respId ∧
    (armed .isotp .iCf 6#12 8#12).rx.rxPhase = .iCf ∧ (onResp 1 0x3F#8 0#8).dlc.val ≠ 0 ∧
    (onResp 1 0x3F#8 0#8).d0.toNat / 16 = 3 ∧ (onResp 1 0x0F#8 0#8).d0.toNat / 16 = 0 ∧
    (onResp 1 0x1F#8 0#8).d0.toNat / 16 = 1 ∧ 4 ≤ (onResp 1 0x40#8 0#8).d0.toNat / 16 := ⟨by decide, by decide⟩
theorem witness_SingleFrameInFirstPhase : Inv (armed .isotp .iFirst 0#12 0#12) ∧
    (onResp 8 0x07#8 0#8).id = (armed .isotp .iFirst 0#12 0#12).can.respId ∧ (onResp 8 0x07#8 0#8).dlc.val ≠ 0 ∧
    (armed .isotp .iFirst 0#12 0#12).rx.rxPhase = .iFirst ∧ (onResp 8 0x07#8 0#8).d0.toNat / 16 = 0 ∧
    1 ≤ (onResp 8 0x07#8 0#8).d0.toNat % 16 ∧ (onResp 8 0x07#8 0#8).d0.toNat % 16 ≤ 7 ∧
    1 + (onResp 8 0x07#8 0#8).d0.toNat % 16 ≤ (onResp 8 0x07#8 0#8).dlc.val := ⟨by decide, by decide⟩
theorem witness_SingleFrameInFirstPhase_malformed : (onResp 8 0x08#8 0#8).d0.toNat / 16 = 0 ∧
    7 < (onResp 8 0x08#8 0#8).d0.toNat % 16 ∧ (onResp 8 0x00#8 0#8).d0.toNat % 16 = 0 ∧
    (onResp 7 0x07#8 0#8).dlc.val < 1 + (onResp 7 0x07#8 0#8).d0.toNat % 16 := by decide
theorem witness_FirstFrameSendsFlowControl : Inv (armed .isotp .iFirst 0#12 0#12) ∧
    (onResp 8 0x10#8 0x08#8).id = (armed .isotp .iFirst 0#12 0#12).can.respId ∧ (onResp 8 0x10#8 0x08#8).dlc.val = 8 ∧
    (armed .isotp .iFirst 0#12 0#12).rx.rxPhase = .iFirst ∧ (onResp 8 0x10#8 0x08#8).d0.toNat / 16 = 1 ∧
    8 ≤ ((onResp 8 0x10#8 0x08#8).d0.toNat % 16) * 256 + (onResp 8 0x10#8 0x08#8).d1.toNat := ⟨by decide, by decide⟩
theorem witness_FirstFrameSendsFlowControl_malformed : (onResp 7 0x10#8 0x08#8).dlc.val ≠ 8 ∧
    (onResp 8 0x10#8 0x07#8).d0.toNat / 16 = 1 ∧
    ((onResp 8 0x10#8 0x07#8).d0.toNat % 16) * 256 + (onResp 8 0x10#8 0x07#8).d1.toNat < 8 := by decide
theorem witness_ConsecutiveFrameInCfPhase : Inv (armed .isotp .iCf 6#12 8#12) ∧
    (onResp 3 0x20#8 0#8).id = (armed .isotp .iCf 6#12 8#12).can.respId ∧ (onResp 3 0x20#8 0#8).dlc.val ≠ 0 ∧
    (armed .isotp .iCf 6#12 8#12).rx.rxPhase = .iCf ∧ (onResp 3 0x20#8 0#8).d0.toNat / 16 = 2 ∧
    (onResp 3 0x20#8 0#8).d0.toNat % 16 = (armed .isotp .iCf 6#12 8#12).rx.rxSn.toNat ∧
    1 + min 7 ((armed .isotp .iCf 6#12 8#12).rx.rxExp.toNat - (armed .isotp .iCf 6#12 8#12).rx.rxIdx.toNat) ≤
      (onResp 3 0x20#8 0#8).dlc.val := ⟨by decide, by decide⟩
theorem witness_ConsecutiveFrameInCfPhase_errors :
    (onResp 8 0x2F#8 0#8).d0.toNat % 16 ≠ (armed .isotp .iCf 6#12 8#12).rx.rxSn.toNat ∧
    (onResp 2 0x20#8 0#8).d0.toNat % 16 = (armed .isotp .iCf 6#12 8#12).rx.rxSn.toNat ∧
    (onResp 2 0x20#8 0#8).dlc.val <
      1 + min 7 ((armed .isotp .iCf 6#12 8#12).rx.rxExp.toNat - (armed .isotp .iCf 6#12 8#12).rx.rxIdx.toNat) := by
  decide
theorem witness_BoschRoundTrip : Idle completed ∧ Memory.wf Config.rxBufSize completed.rx.rxBuf = true ∧
    1 ≤ (List.replicate 255 (0#8 : Byte)).length ∧ (List.replicate 255 (0#8 : Byte)).length ≤ 255 := by decide +kernel
theorem witness_DensoRoundTrip : Idle completed ∧ Memory.wf Config.rxBufSize completed.rx.rxBuf = true ∧
    ([] : List Byte).length ≤ 255 := by decide
theorem witness_SingleFrameRoundTrip : Idle completed ∧ Memory.wf Config.rxBufSize completed.rx.rxBuf = true ∧
    1 ≤ (List.replicate 7 (0#8 : Byte)).length ∧ (List.replicate 7 (0#8 : Byte)).length ≤ 7 := by decide
theorem witness_BoschParserIsDecBosch : Idle State.reset ∧ Memory.wf Config.rxBufSize State.reset.rx.rxBuf = true := by
  decide
theorem witness_DensoParserIsDecDenso : Idle completed ∧ Memory.wf Config.rxBufSize completed.rx.rxBuf = true := by
  decide
theorem witness_SingleByteChangesOfAFrame_bosch : Idle completed ∧
    Memory.wf Config.rxBufSize completed.rx.rxBuf = true ∧ 1 ≤ [(0x10#8 : Byte)].length ∧
    (encBosch [0x10#8]).getD 2 0#8 ≠ 0x12#8 ∧ 2 ≤ [(0x10#8 : Byte)].length + 1 := by decide
theorem witness_SingleByteChangesOfAFrame_denso : (encDenso []).getD 2 0#8 ≠ 0x01#8 ∧ (0x04#8 : Byte) ≠ 0x03#8 ∧
    ([] : List Byte).length < (1#8 : Byte).toNat ∧ (0x02#8 : Byte) ∉ (encDenso [0x10#8]).tail := by decide
theorem witness_IsotpMessageIsReassembled : Idle completed ∧ Memory.wf Config.rxBufSize completed.rx.rxBuf = true ∧
    1 ≤ (List.replicate 4095 (0#8 : Byte)).length ∧ (List.replicate 4095 (0#8 : Byte)).length ≤ 4095 := by
  simp only [List.length_replicate]; decide
theorem witness_EveryStepKeepsTheInvariant :
    Inv (atEtx.pushInput (.serialRx 0x03#8)) ∧
    step (atEtx.pushInput (.serialRx 0x03#8)) = .next (atEtx.setRx (rxComplete .ok atEtx.rx)) := ⟨by decide, rfl⟩
theorem witness_ReachableStatesSatisfyTheRule54Items :
    Sys2Proof.core.run 1 (State.reset.setInputs [.serialRx 0x23#8]) = .next State.reset.stray := rfl
theorem witness_OnlyABadHostAccessStopsAStep : Inv (State.reset.pushInput (.hostRead 0x2C#8 32)) ∧
    step (State.reset.pushInput (.hostRead 0x2C#8 32)) = .fault .busError := ⟨by decide, rfl⟩
theorem witness_TransmitHistoriesOnlyGrow :
    step (State.reset.pushInput (commandWrite 0x2900#32)) =
      .next ((State.reset.emitSerial [0x02#8, 0x00#8, 0x00#8, 0x03#8]).arm .denso .dHunt 0#12) := rfl
theorem witness_StickyFlagsClearedOnlyByClrErrAndReset :
    onInput State.reset.stray .reset = .next State.reset ∧
    State.reset.stray.err.errStray = true ∧ State.reset.err.errStray = false := ⟨rfl, rfl, rfl⟩
theorem witness_WhoMayWriteTheHostOwnedFields :
    onInput State.reset (.hostWrite 0x20#8 32 0xFFF#32) = .next (State.reset.setRxPtr 0xFFF#12) ∧
    ¬ IsCommand (.hostWrite 0x20#8 32 0xFFF#32) .srst ∧ Event.hostWrite 0x20#8 32 0xFFF#32 ≠ .reset ∧
    (State.reset.setRxPtr 0xFFF#12).rxPtr ≠ State.reset.rxPtr :=
  ⟨rfl, fun h => h.elim fun _ hv => absurd hv.1 (by simp), by decide, by decide⟩
theorem witness_WhatEndsAndWhatStartsAReceive_ends :
    onInput atEtx (.serialRx 0x03#8) = .next (atEtx.setRx (rxComplete .ok atEtx.rx)) ∧ atEtx.rx.rxSt = .busy ∧
    (atEtx.setRx (rxComplete .ok atEtx.rx)).rx.rxSt ≠ .busy := ⟨rfl, by decide, by decide⟩
theorem witness_WhatEndsAndWhatStartsAReceive_starts :
    onInput State.reset (commandWrite 0x3000#32) = .next (State.reset.arm .bosch .bLen 0#12) ∧
    State.reset.rx.rxSt ≠ .busy ∧ (State.reset.arm .bosch .bLen 0#12).rx ≠ State.reset.rx :=
  ⟨rfl, by decide, by decide⟩
theorem witness_OnlyValidatedPayloadIsReadable : Inv completed ∧ completed.rxPayload ≠ [] ∧
    completed.rx.rxFam ∈ [.bosch, .denso] ∧ Inv State.reset ∧ State.reset.rx.rxSt ≠ .ok :=
  ⟨by decide, by decide, by decide, by decide, by decide⟩
theorem witness_UnwrittenBufferBytesAreNeverObserved :
    let s := completed.pushInput .timer
    let t := s.setRx { s.rx with rxBuf := [(0, 0x7F#8), (1, 0xAA#8)] }
    Inv s ∧ Inv t ∧ SameVisible s t ∧ s ≠ t ∧ step s = .next completed := by
  refine ⟨by decide, by decide, ⟨rfl, fun _ _ => rfl, ?_⟩, by decide, rfl⟩
  intro i hi
  obtain rfl : i = 0 := Nat.lt_one_iff.mp hi
  rfl
theorem witness_CanBytesBeyondDlcAreNeverRead :
    SameFrame (canFrameOf 0x7E8#11 4 [0x03#8, 0x62#8, 0xF1#8, 0x90#8])
      (canFrameOf 0x7E8#11 4 [0x03#8, 0x62#8, 0xF1#8, 0x90#8, 0xAA#8]) := ⟨rfl, rfl, rfl⟩
theorem witness_TxLoadLoadsThePayload : Memory.wf Config.txBufSize State.reset.tx.txBuf = true ∧
    List.replicate 255 (1#8 : Byte) ≠ [] ∧ (List.replicate 255 (1#8 : Byte)).length ≤ 255 := by decide +kernel

end Sys2Proof.Tests
end

section
/-! PROOFS. The statements about 10_state.md: the command register (R40), the transmit histories (R38), the sticky flags
(R37) and the state invariant (R54). The last three rest on one account of what a step can do: `CommandEffect`,
`ReceiverStep` and `EventEffect` list the effects, and `eventEffect_of_step` says that every step has one of them. -/

namespace Sys2Proof.Machine

/-! ## The command register (R40) -/

/-- R63, R66: an access reaches a register exactly at that register's offset, 32 bits wide. -/
theorem accessedReg_eq_some_iff {off : BitVec 8} {bits : Nat} {r : HostReg} :
    accessedReg off bits = some r ↔ bits = 32 ∧ off = regOffset r := by
  constructor
  · intro h
    unfold accessedReg at h
    split at h
    · rename_i hw
      refine ⟨hw.1, ?_⟩
      unfold regAt at h
      split at h
      case h_12 => cases h
      all_goals
        cases h
        apply BitVec.eq_of_toNat_eq
        assumption
    · cases h
  · rintro ⟨rfl, rfl⟩
    cases r <;> rfl

/-- R40: a step that takes a write to `CMD` runs the written word. -/
theorem step_of_cmdWrite {s : State} {v : Word} {rest : List Event} (h : s.inputs = .hostWrite 0x00#8 32 v :: rest) :
    step s = runWord v (s.setInputs rest) := by
  unfold step takeInput
  rw [h]
  rfl

/-- R40: a step that takes a read of `CMD` returns 0. -/
theorem step_of_cmdRead {s : State} {rest : List Event} (h : s.inputs = .hostRead 0x00#8 32 :: rest) :
    step s = .next ((s.setInputs rest).emitRead 0#32) := by
  unfold step takeInput
  rw [h]
  rfl

/-- R40, R94: a legal word runs the command it encodes. -/
theorem runWord_of_command {v : Word} {i : Instr} (h : decode v = .command i) (s : State) :
    runWord v s = exec i s := by
  unfold runWord
  rw [h]

/-- Settles O5: the access reaches `CMD`, where a write runs the decoded command and a read returns 0. -/
theorem stepRunsTheDecodedCommand : Obligations.StepRunsTheDecodedCommand := by
  intro s rest
  constructor
  · intro v i hin hdec
    rw [step_of_cmdWrite hin, runWord_of_command hdec]
    rfl
  · intro hin
    rw [step_of_cmdRead hin]
    rfl

/-! ## What a step can do -/

/-- The receive that each arming or transmit command starts: family, phase and expected count
(R154 to R159, R184 to R186, R231). -/
inductive Starts : Instr → RxFam → RxPhase → BitVec 12 → Prop
  | txRawB : Starts .txRawB .bosch .bLen 0#12
  | txRawD : Starts .txRawD .denso .dHunt 0#12
  | txRawC {n : Byte} (hn : n ≠ 0#8) : Starts (.txRawC n) .raw .rCap (lengthOfByte n)
  | txBosch : Starts .txBosch .bosch .bLen 0#12
  | txDenso : Starts .txDenso .denso .dHunt 0#12
  | txIsotpSf : Starts .txIsotpSf .isotp .iFirst 0#12
  | rxArmB : Starts .rxArmB .bosch .bLen 0#12
  | rxArmD : Starts .rxArmD .denso .dHunt 0#12
  | rxArmI : Starts .rxArmI .isotp .iFirst 0#12
  | rxCap {n : Byte} (hn : n ≠ 0#8) : Starts (.rxCap n) .raw .rCap (lengthOfByte n)

/-- The effect of a legal command on `s`, up to the values it computes: every command's outcome is among these
(`commandEffect_of_exec`). -/
inductive CommandEffect (s : State) : Instr → State → Prop
  | nop : CommandEffect s .nop s
  | reset : CommandEffect s .srst s.resetBlock
  | clearFlags : CommandEffect s .clrErr (s.setErr clearedFlags)
  | checksum {i : Instr} (hi : i = .ckInit ∨ (∃ b, i = .ckFeed b) ∨ i = .ckFeedTx ∨ i = .ckFeedRx) (x : CkAcc) :
      CommandEffect s i (s.setCk x)
  | buffer {i : Instr} (hi : i = .txClr ∨ ∃ b, i = .txPush b) (x : TxUnit) : CommandEffect s i (s.setTx x)
  | zeroCount {i : Instr} (hi : i = .txRawC 0#8 ∨ i = .rxCap 0#8) : CommandEffect s i s.illegal
  | refusedBusy (i : Instr) (hb : s.rx.rxSt = .busy) : CommandEffect s i s.rejectHdx
  | refusedLength (i : Instr) : CommandEffect s i s.rejectTxlen
  | send (bs : List Byte) : CommandEffect s .txRaw (s.emitSerial bs)
  | arm {i : Instr} {fam : RxFam} {ph : RxPhase} {n : BitVec 12} (hs : Starts i fam ph n) (hb : s.rx.rxSt ≠ .busy) :
      CommandEffect s i (s.arm fam ph n)
  | sendArm {i : Instr} {fam : RxFam} {ph : RxPhase} {n : BitVec 12} (hs : Starts i fam ph n) (hb : s.rx.rxSt ≠ .busy)
      (bs : List Byte) : CommandEffect s i ((s.emitSerial bs).arm fam ph n)
  | frameArm {i : Instr} {fam : RxFam} {ph : RxPhase} {n : BitVec 12} (hs : Starts i fam ph n) (hb : s.rx.rxSt ≠ .busy)
      (f : CanFrame) : CommandEffect s i ((s.emitCan f).arm fam ph n)
  | cancel (hb : s.rx.rxSt = .busy) : CommandEffect s .rxCancel (s.complete .cancelled)
  | cancelIdle (hb : s.rx.rxSt ≠ .busy) : CommandEffect s .rxCancel s

section CommandInversion

variable {s t : State} {i : Instr} {fam : RxFam} {ph : RxPhase} {n : BitVec 12}

theorem commandEffect_of_armCommand (hs : Starts i fam ph n) (h : armCommand fam ph n s = .next t) :
    CommandEffect s i t := by
  obtain ⟨hb, rfl⟩ | ⟨hb, rfl⟩ := armCommand_cases h
  · exact .refusedBusy i hb
  · exact .arm hs hb

/-- A transmit command that sends does what its own `sent` state says. -/
theorem commandEffect_of_transmit {lo hi : Nat} {sent : State} (h : transmit lo hi sent s = .next t)
    (hsent : s.rx.rxSt ≠ .busy → CommandEffect s i sent) : CommandEffect s i t := by
  obtain ⟨hb, rfl⟩ | ⟨-, -, rfl⟩ | ⟨hb, -, -, rfl⟩ := transmit_cases h
  · exact .refusedBusy i hb
  · exact .refusedLength i
  · exact hsent hb

theorem commandEffect_of_txPush {b : Byte} (h : execTxPush b s = .next t) : CommandEffect s (.txPush b) t := by
  unfold execTxPush at h
  split at h <;> cases h
  · exact .refusedLength _
  · exact .buffer (.inr ⟨b, rfl⟩) _

theorem commandEffect_of_rxCancel (h : execRxCancel s = .next t) : CommandEffect s .rxCancel t := by
  unfold execRxCancel at h
  split at h <;> cases h
  · exact .cancel ‹_›
  · exact .cancelIdle ‹_›

/-- Every command that answers a next state has one of the listed effects. -/
theorem commandEffect_of_exec (h : exec i s = .next t) : CommandEffect s i t := by
  cases i with
  | nop => cases h; exact .nop
  | srst => cases h; exact .reset
  | clrErr => cases h; exact .clearFlags
  | ckInit => cases h; exact .checksum (.inl rfl) _
  | ckFeed b => cases h; exact .checksum (.inr (.inl ⟨b, rfl⟩)) _
  | ckFeedTx => cases h; exact .checksum (.inr (.inr (.inl rfl))) _
  | ckFeedRx => cases h; exact .checksum (.inr (.inr (.inr rfl))) _
  | txClr => cases h; exact .buffer (.inl rfl) _
  | txPush b => exact commandEffect_of_txPush h
  | txRaw => exact commandEffect_of_transmit h fun _ => .send _
  | txRawB => exact commandEffect_of_transmit h fun hb => .sendArm .txRawB hb _
  | txRawD => exact commandEffect_of_transmit h fun hb => .sendArm .txRawD hb _
  | txRawC n =>
    obtain ⟨rfl, rfl⟩ | ⟨hn, h⟩ := withCount_cases h
    · exact .zeroCount (.inl rfl)
    · exact commandEffect_of_transmit h fun hb => .sendArm (.txRawC hn) hb _
  | txBosch => exact commandEffect_of_transmit h fun hb => .sendArm .txBosch hb _
  | txDenso => exact commandEffect_of_transmit h fun hb => .sendArm .txDenso hb _
  | txIsotpSf => exact commandEffect_of_transmit h fun hb => .frameArm .txIsotpSf hb _
  | rxArmB => exact commandEffect_of_armCommand .rxArmB h
  | rxArmD => exact commandEffect_of_armCommand .rxArmD h
  | rxArmI => exact commandEffect_of_armCommand .rxArmI h
  | rxCap n =>
    obtain ⟨rfl, rfl⟩ | ⟨hn, h⟩ := withCount_cases h
    · exact .zeroCount (.inr rfl)
    · exact commandEffect_of_armCommand (.rxCap hn) h
  | rxCancel => exact commandEffect_of_rxCancel h

end CommandInversion

/-- The receiver after an accepted single frame (R234). -/
def singleFrameAccepted (f : CanFrame) (r : RxUnit) : RxUnit :=
  { rxStoreAll 0 (f.slice 1 f.lo.toNat) r with rxExp := f.lo.setWidth 12, rxIdx := f.lo.setWidth 12 }

/-- The receiver after an accepted first frame (R235). -/
def firstFrameAccepted (f : CanFrame) (r : RxUnit) : RxUnit :=
  { rxStoreAll 0 (f.slice 2 Config.ffDataBytes) r with
    rxExp := f.totalLength, rxIdx := BitVec.ofNat 12 Config.ffDataBytes, rxSn := 1#4, rxPhase := .iCf }

/-- The receiver's own transitions while `BUSY`: what a serial byte, a frame on `respId` or a timeout makes of it
(R189 to R197, R207, R234 to R243). -/
inductive ReceiverStep (r : RxUnit) : Event → RxUnit → Prop
  | boschLen {b : Byte} (hp : r.rxPhase = .bLen) : ReceiverStep r (.serialRx b) (boschLen b r)
  | boschBody {b : Byte} (hp : r.rxPhase = .bBody) : ReceiverStep r (.serialRx b) (bodyByte .bChk b r)
  | boschCheck {b : Byte} (hp : r.rxPhase = .bChk) : ReceiverStep r (.serialRx b) (boschCheck b r)
  | densoHunt {b : Byte} (hp : r.rxPhase = .dHunt) : ReceiverStep r (.serialRx b) (densoHunt b r)
  | densoLen {b : Byte} (hp : r.rxPhase = .dLen) : ReceiverStep r (.serialRx b) (densoLen b r)
  | densoBody {b : Byte} (hp : r.rxPhase = .dBody) : ReceiverStep r (.serialRx b) (bodyByte .dChk b r)
  | densoCheck {b : Byte} (hp : r.rxPhase = .dChk) : ReceiverStep r (.serialRx b) (densoCheck b r)
  | densoEtx {b : Byte} (hp : r.rxPhase = .dEtx) : ReceiverStep r (.serialRx b) (densoEtx b r)
  | capture {b : Byte} (hp : r.rxPhase = .rCap) : ReceiverStep r (.serialRx b) (captureByte b r)
  | badFrame {f : CanFrame} : ReceiverStep r (.canRx f) (rxComplete .frameErr r)
  | badSequence {f : CanFrame} : ReceiverStep r (.canRx f) (rxComplete .seqErr r)
  | singleFrame {f : CanFrame} (hp : r.rxPhase = .iFirst) :
      ReceiverStep r (.canRx f) (rxComplete .ok (singleFrameAccepted f r))
  | firstFrame {f : CanFrame} (hp : r.rxPhase = .iFirst) (hl : Config.minFirstFrameLen ≤ f.totalLength.toNat) :
      ReceiverStep r (.canRx f) (firstFrameAccepted f r)
  | lastConsecutive {f : CanFrame} (hp : r.rxPhase = .iCf) (hx : (cfAccepted f r).rxIdx = r.rxExp) :
      ReceiverStep r (.canRx f) (rxComplete .ok (cfAccepted f r))
  | consecutive {f : CanFrame} (hp : r.rxPhase = .iCf) (hx : (cfAccepted f r).rxIdx ≠ r.rxExp) :
      ReceiverStep r (.canRx f) (cfAccepted f r)
  | timeout : ReceiverStep r .timer (rxComplete (if notStarted r then .timeout else .short) r)

/-- The effect of one input on `s`: every input's outcome is among these (`eventEffect_of_takeEvent`). -/
inductive EventEffect (s : State) : Event → State → Prop
  | read (off : BitVec 8) (bits : Nat) (v : Word) : EventEffect s (.hostRead off bits) (s.emitRead v)
  | command {v : Word} {i : Instr} {t : State} (hd : decode v = .command i) (h : CommandEffect s i t) :
      EventEffect s (.hostWrite 0x00#8 32 v) t
  | illegal {v : Word} {why : IllegalWord} (hd : decode v = .illegal why) :
      EventEffect s (.hostWrite 0x00#8 32 v) s.illegal
  | crcCfg (v : Word) : EventEffect s (.hostWrite 0x0C#8 32 v) (s.setCrc (crcCfgOf v))
  | canId (v : Word) : EventEffect s (.hostWrite 0x10#8 32 v) (s.setCan (canIdsOf v))
  | rxPtr (v : Word) : EventEffect s (.hostWrite 0x20#8 32 v) (s.setRxPtr (rxPtrOf v))
  | ignored (e : Event) : EventEffect s e s
  | stray (e : Event) : EventEffect s e s.stray
  | receive {e : Event} {r : RxUnit} (hb : s.rx.rxSt = .busy) (h : ReceiverStep s.rx e r) :
      EventEffect s e (s.setRx r)
  | receiveSend {e : Event} {r : RxUnit} (hb : s.rx.rxSt = .busy) (h : ReceiverStep s.rx e r) (f : CanFrame) :
      EventEffect s e ((s.setRx r).emitCan f)
  | reset : EventEffect s .reset s.resetBlock

section EventInversion

variable {s t : State}

theorem eventEffect_of_runWord {v : Word} (h : runWord v s = .next t) :
    EventEffect s (.hostWrite 0x00#8 32 v) t := by
  obtain ⟨i, hd, h⟩ | ⟨why, hd, rfl⟩ := runWord_cases h
  · exact .command hd (commandEffect_of_exec h)
  · exact .illegal hd

theorem eventEffect_of_regWrite {r : HostReg} {v : Word} (h : regWrite r v s = .next t) :
    EventEffect s (.hostWrite (regOffset r) 32 v) t := by
  cases r with
  | cmd => exact eventEffect_of_runWord h
  | crcCfg => cases h; exact .crcCfg v
  | canId => cases h; exact .canId v
  | rxPtr => cases h; exact .rxPtr v
  | status | ckResult | txLen | rxLen | rxInfo | rxData | rxProg => cases h; exact .ignored _

/-- A serial byte for an armed receiver changes the receiver only, by its phase (R188). -/
theorem receiverStep_of_serialByPhase {b : Byte} (h : serialByPhase b s = .next t) :
    ∃ r, t = s.setRx r ∧ ReceiverStep s.rx (.serialRx b) r := by
  unfold serialByPhase at h
  split at h
  case h_1 hp => cases h; exact ⟨_, rfl, .boschLen hp⟩
  case h_2 hp => exact ⟨_, (storing_cases h).2, .boschBody hp⟩
  case h_3 hp => cases h; exact ⟨_, rfl, .boschCheck hp⟩
  case h_4 hp => cases h; exact ⟨_, rfl, .densoHunt hp⟩
  case h_5 hp => cases h; exact ⟨_, rfl, .densoLen hp⟩
  case h_6 hp => exact ⟨_, (storing_cases h).2, .densoBody hp⟩
  case h_7 hp => cases h; exact ⟨_, rfl, .densoCheck hp⟩
  case h_8 hp => cases h; exact ⟨_, rfl, .densoEtx hp⟩
  case h_9 hp => exact ⟨_, (storing_cases h).2, .capture hp⟩
  all_goals cases h

/-- A frame in `I_FIRST` is malformed, a single frame, a first frame or ignored (R234, R235, R237, R238, R243). -/
theorem eventEffect_inFirstPhase (f : CanFrame) (hb : s.rx.rxSt = .busy) (hp : s.rx.rxPhase = .iFirst) :
    EventEffect s (.canRx f) (inFirstPhase f s) := by
  unfold inFirstPhase
  split
  · exact .receive hb .badFrame
  split
  · unfold singleFrame
    dsimp only
    split
    · exact .receive hb .badFrame
    · exact .receive hb (.singleFrame hp)
  split
  · unfold firstFrame
    split
    · exact .receive hb .badFrame
    split
    · exact .receive hb .badFrame
    · exact .receiveSend hb (.firstFrame hp (by omega)) _
  split
  · exact .ignored _
  · exact .receive hb .badFrame

/-- A frame in `I_CF` is malformed, out of sequence, a consecutive frame or ignored (R239 to R243). -/
theorem eventEffect_inCfPhase (f : CanFrame) (hb : s.rx.rxSt = .busy) (hp : s.rx.rxPhase = .iCf) :
    EventEffect s (.canRx f) (inCfPhase f s) := by
  unfold inCfPhase
  split
  · exact .receive hb .badFrame
  split
  · unfold consecutiveFrame
    split
    · exact .receive hb .badSequence
    split
    · exact .receive hb .badFrame
    split
    · exact .receive hb (.lastConsecutive hp ‹_›)
    · exact .receive hb (.consecutive hp ‹_›)
  split
  · exact .ignored _
  · exact .receive hb .badFrame

theorem eventEffect_of_canByPhase {f : CanFrame} (hb : s.rx.rxSt = .busy) (h : canByPhase f s = .next t) :
    EventEffect s (.canRx f) t := by
  unfold canByPhase at h
  split at h
  case h_1 hp => cases h; exact eventEffect_inFirstPhase f hb hp
  case h_2 hp => cases h; exact eventEffect_inCfPhase f hb hp
  all_goals cases h

/-- Every input that answers a next state has one of the listed effects. -/
theorem eventEffect_of_takeEvent {e : Event} (h : takeEvent e s = .next t) : EventEffect s e t := by
  cases e with
  | hostRead off bits =>
    obtain ⟨r, -, rfl⟩ := hostRead_cases h
    exact .read off bits _
  | hostWrite off bits v =>
    obtain ⟨r, ha, hw⟩ := hostWrite_cases h
    obtain ⟨rfl, rfl⟩ := accessedReg_eq_some_iff.mp ha
    exact eventEffect_of_regWrite hw
  | serialRx b =>
    obtain ⟨-, rfl⟩ | ⟨hb, -, h⟩ := serialInput_cases h
    · exact .stray _
    · obtain ⟨r, rfl, hr⟩ := receiverStep_of_serialByPhase h
      exact .receive hb hr
  | canRx f =>
    obtain ⟨-, rfl⟩ | ⟨-, -, rfl⟩ | ⟨-, hb, -, h⟩ := canInput_cases h
    · exact .ignored _
    · exact .stray _
    · exact eventEffect_of_canByPhase hb h
  | timer =>
    obtain ⟨hb, rfl⟩ | ⟨-, rfl⟩ := timeoutInput_cases h
    · exact .receive hb .timeout
    · exact .ignored _
  | reset => cases h; exact .reset

/-- A step changes nothing, or takes its first input. -/
theorem eventEffect_of_step (h : step s = .next t) :
    t = s ∨ ∃ e rest, EventEffect (s.setInputs rest) e t := by
  obtain ⟨-, rfl⟩ | ⟨e, rest, -, h⟩ := step_cases h
  · exact .inl rfl
  · exact .inr ⟨e, rest, eventEffect_of_takeEvent h⟩

end EventInversion

/-! ## The transmit histories (R38) -/

section Histories

variable {s t : State}

theorem commandEffect_histories {i : Instr} (h : CommandEffect s i t) :
    s.serialOut <+: t.serialOut ∧ s.canOut <+: t.canOut := by
  cases h with
  | send | sendArm | frameArm => simp
  | nop | reset | clearFlags | checksum | buffer | zeroCount | refusedBusy | refusedLength | arm | cancel
  | cancelIdle => simp

theorem eventEffect_histories {e : Event} (h : EventEffect s e t) :
    s.serialOut <+: t.serialOut ∧ s.canOut <+: t.canOut := by
  cases h with
  | command _ h => exact commandEffect_histories h
  | receiveSend | read | illegal | crcCfg | canId | rxPtr | ignored | stray | receive | reset => simp

end Histories

/-- Settles O51: no effect of a step removes anything from a history, and only a transmission appends to one. -/
theorem transmitHistoriesOnlyGrow : Obligations.TransmitHistoriesOnlyGrow := by
  intro s t h
  obtain rfl | ⟨e, rest, he⟩ := eventEffect_of_step h
  · exact ⟨List.prefix_refl _, List.prefix_refl _⟩
  · exact eventEffect_histories (s := s.setInputs rest) he

/-! ## The sticky flags (R37) -/

/-- Every sticky flag set in `e` is set in `e'`. -/
def FlagsKept (e e' : ErrFlags) : Prop :=
  (e.errIll = true → e'.errIll = true) ∧ (e.errHdx = true → e'.errHdx = true) ∧
  (e.errTxlen = true → e'.errTxlen = true) ∧ (e.errStray = true → e'.errStray = true)

section StickyFlags

variable (err : ErrFlags)

@[simp] theorem flagsKept_self : FlagsKept err err := ⟨id, id, id, id⟩
@[simp] theorem flagsKept_setIll : FlagsKept err (setIll err) := ⟨fun _ => rfl, id, id, id⟩
@[simp] theorem flagsKept_setHdx : FlagsKept err (setHdx err) := ⟨id, fun _ => rfl, id, id⟩
@[simp] theorem flagsKept_setTxlen : FlagsKept err (setTxlen err) := ⟨id, id, fun _ => rfl, id⟩
@[simp] theorem flagsKept_setStray : FlagsKept err (setStray err) := ⟨id, id, id, fun _ => rfl⟩

variable {s t : State}

/-- Only `CLR_ERR` and `SRST` clear a flag among the commands (R271, R272). -/
theorem commandEffect_flags {i : Instr} (h : CommandEffect s i t) :
    i = .clrErr ∨ i = .srst ∨ FlagsKept s.err t.err := by
  cases h with
  | clearFlags => exact .inl rfl
  | reset => exact .inr (.inl rfl)
  | nop | checksum | buffer | zeroCount | refusedBusy | refusedLength | send | arm | sendArm | frameArm | cancel
  | cancelIdle => simp

/-- Only those commands and the reset input clear a flag among the inputs. -/
theorem eventEffect_flags {e : Event} (h : EventEffect s e t) :
    (IsCommand e .clrErr ∨ IsCommand e .srst ∨ e = .reset) ∨ FlagsKept s.err t.err := by
  cases h with
  | command hd h =>
    obtain rfl | rfl | hk := commandEffect_flags h
    · exact .inl (.inl ⟨_, rfl, hd⟩)
    · exact .inl (.inr (.inl ⟨_, rfl, hd⟩))
    · exact .inr hk
  | reset => exact .inl (.inr (.inr rfl))
  | read | illegal | crcCfg | canId | rxPtr | ignored | stray | receive | receiveSend => simp

end StickyFlags

/-- Settles O52: every other effect keeps the flags, so a cleared flag would be set and not set. -/
theorem stickyFlagsClearedOnlyByClrErrAndReset : Obligations.StickyFlagsClearedOnlyByClrErrAndReset := by
  intro s t e h hcleared
  obtain he | ⟨hill, hhdx, htxlen, hstray⟩ := eventEffect_flags (eventEffect_of_takeEvent h)
  · exact he
  · obtain ⟨hs, ht⟩ | ⟨hs, ht⟩ | ⟨hs, ht⟩ | ⟨hs, ht⟩ := hcleared
    · simp [hill hs] at ht
    · simp [hhdx hs] at ht
    · simp [htxlen hs] at ht
    · simp [hstray hs] at ht

/-! ## The state invariant (R54) -/

/-- What each phase of an armed receiver says of its family, its counters and its checksum record (R27, R33, R34). -/
def PhaseInv (ph : RxPhase) (r : RxUnit) : Prop :=
  match ph with
  | .none => False
  | .bLen => r.rxFam = .bosch ∧ r.rxIdx = 0#12
  | .bBody => r.rxFam = .bosch ∧ r.rxIdx < r.rxExp
  | .bChk => r.rxFam = .bosch ∧ r.rxIdx = r.rxExp
  | .dHunt => r.rxFam = .denso ∧ r.rxIdx = 0#12
  | .dLen => r.rxFam = .denso ∧ r.rxIdx = 0#12
  | .dBody => r.rxFam = .denso ∧ r.rxIdx < r.rxExp
  | .dChk => r.rxFam = .denso ∧ r.rxIdx = r.rxExp
  | .dEtx => r.rxFam = .denso ∧ r.rxIdx = r.rxExp ∧ r.chkSeen = true
  | .iFirst => r.rxFam = .isotp ∧ r.rxIdx = 0#12
  | .iCf => r.rxFam = .isotp ∧ r.rxIdx < r.rxExp
  | .rCap => r.rxFam = .raw ∧ r.rxIdx < r.rxExp

/-- The checksum record is the comparison made, or untouched; families without a checksum byte make none (R34). -/
def CheckInv (r : RxUnit) : Prop :=
  (r.chkSeen = true → r.chkMatch = decide (r.chkRx = r.chkCalc)) ∧
  (r.chkSeen = false → r.chkMatch = false ∧ r.chkRx = 0#8 ∧ r.chkCalc = 0#8) ∧
  (r.rxFam ∈ [.none, .isotp, .raw] → r.chkSeen = false)

section Invariant

variable {r : RxUnit}

/-- The receiver's invariant while `BUSY`: nothing is committed, and the phase and the checksum record are sound. -/
theorem rxInv_busy_iff {ph : RxPhase} (hb : r.rxSt = .busy) (hp : r.rxPhase = ph) :
    RxInv r ↔ r.rxCommit = 0#12 ∧ PhaseInv ph r ∧ CheckInv r := by
  constructor
  · rintro ⟨hnone, hcommit, -, -, hbosch, hdenso, hisotp, hraw, hzero, hbelow, hfull, hetx, hseen, hunseen, hfam, -⟩
    refine ⟨?_, ?_, hseen, hunseen, hfam⟩
    · by_contra hc
      simp [hcommit hc] at hb
    · unfold PhaseInv
      split <;> simp_all
  · rintro ⟨hcommit, hphase, hseen, hunseen, hfam⟩
    unfold PhaseInv at hphase
    split at hphase <;> simp_all [RxInv]

theorem rxInv_of_busy (ph : RxPhase) (hb : r.rxSt = .busy) (hp : r.rxPhase = ph) (hcommit : r.rxCommit = 0#12)
    (hphase : PhaseInv ph r) (hchk : CheckInv r) : RxInv r :=
  (rxInv_busy_iff hb hp).mpr ⟨hcommit, hphase, hchk⟩

/-- An armed receiver has a family (R33, item 7 of R54). -/
theorem family_ne_none (hb : r.rxSt = .busy) (h : RxInv r) : r.rxFam ≠ .none := by
  obtain ⟨-, -, -, hnone, -⟩ := h
  intro hf
  simp [hnone hf] at hb

theorem zero_lt_lengthOfByte {b : Byte} (hb : b ≠ 0#8) : 0#12 < lengthOfByte b := by
  simp only [lengthOfByte]
  bv_omega

/-- A count below its limit that does not reach it by one more byte stays below. -/
theorem add_one_lt_of_ne {i n : BitVec 12} (hlt : i < n) (hne : i + 1#12 ≠ n) : i + 1#12 < n := by
  bv_omega

/-- The bytes owed by a consecutive frame never take the count past the total (R239). -/
theorem cfAccepted_rxIdx_le (hidx : r.rxIdx < r.rxExp) (f : CanFrame) : (cfAccepted f r).rxIdx ≤ r.rxExp := by
  simp only [cfAccepted_rxIdx, owedBytes, Config.cfDataBytes]
  bv_omega

/-- Completing a receive with a known family keeps the invariant, if `OK` is given to a full payload whose checksum
byte, where there is one, matched (R183). -/
theorem rxInv_complete {code : RxSt} (hcode : code ≠ .busy) (hfam : r.rxFam ≠ .none) (hchk : CheckInv r)
    (hok : code = .ok → r.rxExp = r.rxIdx ∧ (r.rxFam ∈ [.bosch, .denso] → r.chkMatch = true)) :
    RxInv (rxComplete code r) := by
  obtain ⟨hseen, hunseen, hnocheck⟩ := hchk
  refine ⟨by simp [hcode], ?_, fun hc => ⟨if_pos hc, (hok hc).1⟩, fun hn => absurd hn hfam, by simp, by simp,
    by simp, by simp, by simp, by simp, by simp, by simp, hseen, hunseen, hnocheck, fun hc => (hok hc).2⟩
  intro hcommit
  by_contra hc
  exact hcommit (if_neg hc)

/-- A receive that ends without `OK` keeps the invariant (R183). -/
theorem rxInv_complete_error {code : RxSt} (hb : r.rxSt = .busy) (h : RxInv r) (hcode : code ≠ .busy)
    (hok : code ≠ .ok) : RxInv (rxComplete code r) := by
  obtain ⟨-, -, hchk⟩ := (rxInv_busy_iff hb rfl).mp h
  exact rxInv_complete hcode (family_ne_none hb h) hchk fun hc => absurd hc hok

/-- A comparison of a checksum byte leaves a sound record in the families that have one (R34). -/
theorem checkInv_checked (hfam : r.rxFam ∈ [.bosch, .denso]) (b x : Byte) : CheckInv (checked b x r) := by
  refine ⟨fun _ => rfl, fun hs => Bool.noConfusion hs, fun hf => ?_⟩
  rw [checked_rxFam] at hf
  simp only [List.mem_cons, List.not_mem_nil, or_false] at hfam hf
  obtain h | h := hfam <;> simp [h] at hf

/-- Arming starts every receive in a sound first phase (R182). -/
theorem rxInv_arm {i : Instr} {fam : RxFam} {ph : RxPhase} {n : BitVec 12} (hs : Starts i fam ph n) (r : RxUnit) :
    RxInv (rxArm fam ph n r) := by
  refine rxInv_of_busy ph rfl rfl rfl ?_ (by simp [CheckInv])
  cases hs with
  | txRawC hn | rxCap hn => exact ⟨rfl, zero_lt_lengthOfByte hn⟩
  | txRawB | txRawD | txBosch | txDenso | txIsotpSf | rxArmB | rxArmD | rxArmI => exact ⟨rfl, rfl⟩

theorem rxInv_reset : RxInv rxReset := by decide

section Busy

variable (hb : r.rxSt = .busy) (h : RxInv r)
include hb h

/-! ### Serial bytes -/

theorem rxInv_boschLen (hp : r.rxPhase = .bLen) (b : Byte) : RxInv (boschLen b r) := by
  unfold boschLen
  split
  · exact rxInv_complete_error hb h (by simp) (by simp)
  · rename_i hlen
    obtain ⟨hcommit, ⟨hfam, hidx⟩, hchk⟩ := (rxInv_busy_iff hb hp).mp h
    exact rxInv_of_busy .bBody hb rfl hcommit ⟨hfam, hidx ▸ zero_lt_lengthOfByte hlen⟩ hchk

/-- A summed payload byte keeps the invariant, whether it is the last one or not (R190, R194). -/
theorem rxInv_bodyByte {body after : RxPhase} (hp : r.rxPhase = body)
    (hba : (body = .bBody ∧ after = .bChk) ∨ (body = .dBody ∧ after = .dChk)) (b : Byte) :
    RxInv (bodyByte after b r) := by
  obtain ⟨hcommit, hphase, hchk⟩ := (rxInv_busy_iff hb hp).mp h
  by_cases hlast : r.rxIdx + 1#12 = r.rxExp
  · refine rxInv_of_busy after hb (if_pos hlast) hcommit ?_ hchk
    obtain ⟨rfl, rfl⟩ | ⟨rfl, rfl⟩ := hba <;> exact ⟨hphase.1, hlast⟩
  · refine rxInv_of_busy body hb ((if_neg hlast).trans hp) hcommit ?_ hchk
    obtain ⟨rfl, rfl⟩ | ⟨rfl, rfl⟩ := hba <;> exact ⟨hphase.1, add_one_lt_of_ne hphase.2 hlast⟩

theorem rxInv_boschCheck (hp : r.rxPhase = .bChk) (b : Byte) : RxInv (boschCheck b r) := by
  obtain ⟨-, ⟨hfam, hidx⟩, -⟩ := (rxInv_busy_iff hb hp).mp h
  refine rxInv_complete (by split <;> simp) (by simp [hfam]) (checkInv_checked (by simp [hfam]) b _) fun hok => ?_
  have hmatch : b = r.rxSum := by
    by_contra hne
    simp [hne] at hok
  exact ⟨hidx.symm, fun _ => decide_eq_true hmatch⟩

theorem rxInv_densoHunt (hp : r.rxPhase = .dHunt) (b : Byte) : RxInv (densoHunt b r) := by
  obtain ⟨hcommit, hphase, hchk⟩ := (rxInv_busy_iff hb hp).mp h
  unfold densoHunt
  split
  · exact rxInv_of_busy .dLen hb rfl hcommit hphase hchk
  · exact h

theorem rxInv_densoLen (hp : r.rxPhase = .dLen) (b : Byte) : RxInv (densoLen b r) := by
  obtain ⟨hcommit, ⟨hfam, hidx⟩, hchk⟩ := (rxInv_busy_iff hb hp).mp h
  by_cases hlen : b = 0#8
  · exact rxInv_of_busy .dChk hb (if_pos hlen) hcommit ⟨hfam, by simp [densoLen, hidx, hlen, lengthOfByte]⟩ hchk
  · exact rxInv_of_busy .dBody hb (if_neg hlen) hcommit ⟨hfam, hidx ▸ zero_lt_lengthOfByte hlen⟩ hchk

theorem rxInv_densoCheck (hp : r.rxPhase = .dChk) (b : Byte) : RxInv (densoCheck b r) := by
  obtain ⟨hcommit, ⟨hfam, hidx⟩, -⟩ := (rxInv_busy_iff hb hp).mp h
  exact rxInv_of_busy .dEtx hb rfl hcommit ⟨hfam, hidx, rfl⟩ (checkInv_checked (by simp [hfam]) b _)

theorem rxInv_densoEtx (hp : r.rxPhase = .dEtx) (b : Byte) : RxInv (densoEtx b r) := by
  obtain ⟨-, ⟨hfam, hidx, -⟩, hchk⟩ := (rxInv_busy_iff hb hp).mp h
  unfold densoEtx
  split
  · exact rxInv_complete_error hb h (by simp) (by simp)
  · split
    · exact rxInv_complete (by simp) (by simp [hfam]) hchk fun _ => ⟨hidx.symm, fun _ => ‹_›⟩
    · exact rxInv_complete_error hb h (by simp) (by simp)

theorem rxInv_captureByte (hp : r.rxPhase = .rCap) (b : Byte) : RxInv (captureByte b r) := by
  obtain ⟨hcommit, ⟨hfam, hidx⟩, hchk⟩ := (rxInv_busy_iff hb hp).mp h
  unfold captureByte
  split
  · exact rxInv_complete (by simp) (by simp [hfam]) hchk fun _ => ⟨Eq.symm ‹_›, by simp [hfam]⟩
  · exact rxInv_of_busy .rCap hb hp hcommit ⟨hfam, add_one_lt_of_ne hidx ‹_›⟩ hchk

/-! ### CAN frames -/

theorem rxInv_singleFrameAccepted (hp : r.rxPhase = .iFirst) (f : CanFrame) :
    RxInv (rxComplete .ok (singleFrameAccepted f r)) := by
  obtain ⟨-, ⟨hfam, -⟩, hchk⟩ := (rxInv_busy_iff hb hp).mp h
  exact rxInv_complete (by simp) (by simp [singleFrameAccepted, hfam]) hchk
    fun _ => ⟨rfl, by simp [singleFrameAccepted, hfam]⟩

theorem rxInv_firstFrameAccepted (hp : r.rxPhase = .iFirst) {f : CanFrame}
    (hl : Config.minFirstFrameLen ≤ f.totalLength.toNat) : RxInv (firstFrameAccepted f r) := by
  obtain ⟨hcommit, ⟨hfam, -⟩, hchk⟩ := (rxInv_busy_iff hb hp).mp h
  refine rxInv_of_busy .iCf hb rfl hcommit ⟨hfam, ?_⟩ hchk
  have htotal : 8 ≤ f.totalLength.toNat := hl
  change 6#12 < f.totalLength
  bv_omega

theorem rxInv_cfAccepted (hp : r.rxPhase = .iCf) {f : CanFrame} (hx : (cfAccepted f r).rxIdx ≠ r.rxExp) :
    RxInv (cfAccepted f r) := by
  obtain ⟨hcommit, ⟨hfam, hidx⟩, hchk⟩ := (rxInv_busy_iff hb hp).mp h
  exact rxInv_of_busy .iCf hb hp hcommit ⟨hfam, BitVec.lt_of_le_ne (cfAccepted_rxIdx_le hidx f) hx⟩ hchk

theorem rxInv_complete_cfAccepted (hp : r.rxPhase = .iCf) {f : CanFrame} (hx : (cfAccepted f r).rxIdx = r.rxExp) :
    RxInv (rxComplete .ok (cfAccepted f r)) := by
  obtain ⟨-, ⟨hfam, -⟩, hchk⟩ := (rxInv_busy_iff hb hp).mp h
  exact rxInv_complete (by simp) (by simp [hfam]) hchk fun _ => ⟨hx.symm, by simp [hfam]⟩

/-- Everything the outside world does to an armed receiver keeps its invariant. -/
theorem rxInv_receiverStep {e : Event} {r' : RxUnit} (hs : ReceiverStep r e r') : RxInv r' := by
  cases hs with
  | boschLen hp => exact rxInv_boschLen hb h hp _
  | boschBody hp => exact rxInv_bodyByte hb h hp (.inl ⟨rfl, rfl⟩) _
  | boschCheck hp => exact rxInv_boschCheck hb h hp _
  | densoHunt hp => exact rxInv_densoHunt hb h hp _
  | densoLen hp => exact rxInv_densoLen hb h hp _
  | densoBody hp => exact rxInv_bodyByte hb h hp (.inr ⟨rfl, rfl⟩) _
  | densoCheck hp => exact rxInv_densoCheck hb h hp _
  | densoEtx hp => exact rxInv_densoEtx hb h hp _
  | capture hp => exact rxInv_captureByte hb h hp _
  | badFrame | badSequence => exact rxInv_complete_error hb h (by simp) (by simp)
  | singleFrame hp => exact rxInv_singleFrameAccepted hb h hp _
  | firstFrame hp hl => exact rxInv_firstFrameAccepted hb h hp hl
  | lastConsecutive hp hx => exact rxInv_complete_cfAccepted hb h hp hx
  | consecutive hp hx => exact rxInv_cfAccepted hb h hp hx
  | timeout => exact rxInv_complete_error hb h (by split <;> simp) (by split <;> simp)

end Busy

variable {s t : State}

theorem commandEffect_rxInv {i : Instr} (h : CommandEffect s i t) (hinv : RxInv s.rx) : RxInv t.rx := by
  cases h with
  | reset => exact rxInv_reset
  | arm hs | sendArm hs | frameArm hs => exact rxInv_arm hs _
  | cancel hb => exact rxInv_complete_error hb hinv (by simp) (by simp)
  | nop | clearFlags | checksum | buffer | zeroCount | refusedBusy | refusedLength | send | cancelIdle => exact hinv

theorem eventEffect_rxInv {e : Event} (h : EventEffect s e t) (hinv : RxInv s.rx) : RxInv t.rx := by
  cases h with
  | command _ h => exact commandEffect_rxInv h hinv
  | receive hb h | receiveSend hb h => exact rxInv_receiverStep hb hinv h
  | reset => exact rxInv_reset
  | read | illegal | crcCfg | canId | rxPtr | ignored | stray => exact hinv

/-- Every step keeps the receiver's invariant. -/
theorem step_keeps_rxInv (hinv : RxInv s.rx) (h : step s = .next t) : RxInv t.rx := by
  obtain rfl | ⟨e, rest, he⟩ := eventEffect_of_step h
  · exact hinv
  · exact eventEffect_rxInv he hinv

/-- A run of one step more is a step and the rest of the run. -/
theorem run_succ_cases {k : Nat} (h : Sys2Proof.core.run (k + 1) s = .next t) :
    ∃ s', step s = .next s' ∧ Sys2Proof.core.run k s' = .next t := by
  have heq := Host.Core.run.eq_2 Sys2Proof.core s k
  rw [heq] at h
  split at h
  · exact ⟨_, ‹_›, h⟩
  · cases h
  · cases h

/-- A property that every step keeps holds along every run. -/
theorem run_keeps {P : State → Prop} (hstep : ∀ s t : State, P s → step s = .next t → P t) (k : Nat)
    (hs : P s) (h : Sys2Proof.core.run k s = .next t) : P t := by
  induction k generalizing s with
  | zero => cases h; exact hs
  | succ k ih =>
    obtain ⟨s', hs', h⟩ := run_succ_cases h
    exact ih (hstep s s' hs hs') h

/-- Item 6 of R54: while bytes are counted, the count is at most the length. -/
theorem rxIdx_le_rxExp (hinv : RxInv r) (hp : r.rxPhase ∈ [.bBody, .bChk, .dBody, .dChk, .dEtx, .iCf, .rCap]) :
    r.rxIdx ≤ r.rxExp := by
  obtain ⟨-, -, -, -, -, -, -, -, -, hbelow, hfull, -⟩ := hinv
  by_cases hcount : r.rxPhase ∈ [.bBody, .dBody, .iCf, .rCap]
  · exact BitVec.le_of_lt (hbelow hcount)
  · refine BitVec.le_of_eq (hfull ?_)
    simp_all

end Invariant

/-- Settles O49: the receiver's invariant holds at reset and is kept by every step, and gives items 3 to 7; items 1
and 2 hold by the widths of the fields. -/
theorem reachableStatesSatisfyTheRule54Items : Obligations.ReachableStatesSatisfyTheRule54Items := by
  intro es k t hrun
  have hinv : RxInv t.rx := run_keeps (P := fun s => RxInv s.rx) (fun _ _ => step_keeps_rxInv) k rxInv_reset hrun
  have hcount := rxIdx_le_rxExp hinv
  obtain ⟨hphase, hcommit, hok, hfam, -⟩ := hinv
  exact ⟨by omega, ⟨by omega, by omega, by omega⟩, hphase, hcommit, hok, fun _ => hcount, hfam⟩

end Sys2Proof.Machine
end

section
/-! PROOFS. The statement about 20_memory.md: the host's accesses that fault (R66). Every command,
and so every register write, answers a next state; so an access faults only where it reaches no register. -/

namespace Sys2Proof.Machine

/-! ## Every command answers a next state -/

/-- The outcome is a next state: no fault and no refusal. -/
def Completes (r : Result) : Prop := ∃ t, r = .next t

section Completion

variable (s : State)

theorem completes_next : Completes (.next s) := ⟨s, rfl⟩

theorem completes_transmit (lo hi : Nat) (sent : State) : Completes (transmit lo hi sent s) := by
  unfold transmit
  split
  · exact completes_next _
  · split <;> exact completes_next _

theorem completes_armCommand (fam : RxFam) (ph : RxPhase) (n : BitVec 12) : Completes (armCommand fam ph n s) := by
  unfold armCommand
  split <;> exact completes_next _

theorem completes_withCount (n : Byte) {legal : Result} (h : Completes legal) : Completes (withCount n s legal) := by
  unfold withCount
  split
  · exact completes_next _
  · exact h

theorem completes_txPush (b : Byte) : Completes (execTxPush b s) := by
  unfold execTxPush
  split <;> exact completes_next _

theorem completes_rxCancel : Completes (execRxCancel s) := by
  unfold execRxCancel
  split <;> exact completes_next _

/-- R290, R300: a command takes no exception; a refused one has a next state too. -/
theorem completes_exec (i : Instr) : Completes (exec i s) := by
  cases i with
  | nop | srst | clrErr | ckInit | ckFeed | ckFeedTx | ckFeedRx | txClr => exact completes_next _
  | txPush b => exact completes_txPush s b
  | txRaw | txRawB | txRawD | txBosch | txDenso | txIsotpSf => exact completes_transmit s _ _ _
  | txRawC n => exact completes_withCount s n (completes_transmit s _ _ _)
  | rxArmB | rxArmD | rxArmI => exact completes_armCommand s _ _ _
  | rxCap n => exact completes_withCount s n (completes_armCommand s _ _ _)
  | rxCancel => exact completes_rxCancel s

theorem completes_runWord (v : Word) : Completes (runWord v s) := by
  unfold runWord
  split
  · exact completes_exec s _
  · exact completes_next _

/-- R43, R51, R70: a 32-bit write to a mapped register answers a next state, whatever the value written. -/
theorem completes_regWrite (r : HostReg) (v : Word) : Completes (regWrite r v s) := by
  cases r with
  | cmd => exact completes_runWord s v
  | crcCfg | canId | rxPtr => exact completes_next _
  | status | ckResult | txLen | rxLen | rxInfo | rxData | rxProg => exact completes_next _

end Completion

theorem Completes.ne_fault {r : Result} (h : Completes r) (f : Fault) : r ≠ .fault f := by
  obtain ⟨t, rfl⟩ := h
  exact nofun

/-! ## Bad host accesses (R66) -/

/-- R63: the mapped offsets are the multiples of 4 up to `0x28`. -/
theorem exists_eq_regOffset_iff {off : BitVec 8} :
    (∃ r, off = regOffset r) ↔ off.toNat % 4 = 0 ∧ off.toNat ≤ 0x28 := by
  constructor
  · rintro ⟨r, rfl⟩
    cases r <;> decide
  · rintro ⟨haligned, hle⟩
    obtain ⟨k, hk⟩ := Nat.dvd_of_mod_eq_zero haligned
    have hk10 : k ≤ 10 := by omega
    have mapped (r : HostReg) (h : off.toNat = (regOffset r).toNat) : ∃ r, off = regOffset r :=
      ⟨r, BitVec.eq_of_toNat_eq h⟩
    interval_cases k
    exacts [mapped .cmd hk, mapped .status hk, mapped .ckResult hk, mapped .crcCfg hk, mapped .canId hk,
      mapped .txLen hk, mapped .rxLen hk, mapped .rxInfo hk, mapped .rxPtr hk, mapped .rxData hk, mapped .rxProg hk]

/-- R63, R66: the accesses that reach no register. -/
theorem accessedReg_eq_none_iff {off : BitVec 8} {bits : Nat} :
    accessedReg off bits = none ↔ bits ≠ 32 ∨ off.toNat % 4 ≠ 0 ∨ 0x28 < off.toNat := by
  have hreach : (∃ r, accessedReg off bits = some r) ↔ bits = 32 ∧ off.toNat % 4 = 0 ∧ off.toNat ≤ 0x28 := by
    simp only [accessedReg_eq_some_iff, exists_and_left, exists_eq_regOffset_iff]
  rw [← Option.not_isSome_iff_eq_none, Option.isSome_iff_exists, hreach]
  omega

section Access

variable {s : State} {off : BitVec 8} {bits : Nat}

theorem hostRead_eq_busError_iff : hostRead off bits s = .fault .busError ↔ accessedReg off bits = none := by
  unfold hostRead
  split <;> simp [*]

theorem hostWrite_eq_busError_iff {v : Word} :
    hostWrite off bits v s = .fault .busError ↔ accessedReg off bits = none := by
  unfold hostWrite
  split
  next r hr => simp [hr, (completes_regWrite s r v).ne_fault]
  next hr => simp [hr]

end Access

/-- Settles O45: a read or a write faults exactly when it reaches no register, because one that reaches a register
answers a next state. -/
theorem busErrorExactlyOnBadAccesses : Obligations.BusErrorExactlyOnBadAccesses := by
  intro s off bits v
  exact ⟨hostRead_eq_busError_iff.trans accessedReg_eq_none_iff,
    hostWrite_eq_busError_iff.trans accessedReg_eq_none_iff⟩

end Sys2Proof.Machine
end

section
/-! PROOFS. The statements about 30_encoding.md: the opcode map (R92) and the illegal words (R93, R273). Both go through
`decodeOp`: a word built from its fields decodes by its opcode, and each class of opcodes has its own rule for `IMM`. -/

namespace Sys2Proof

/-! ## The fields of a command word (R90) -/

@[simp] theorem opField_commandWord (op imm : Byte) : opField (commandWord op imm) = op := by
  unfold opField commandWord
  rw [BitVec.extractLsb'_append_eq_of_le (by decide), BitVec.extractLsb'_append_eq_right]

@[simp] theorem immField_commandWord (op imm : Byte) : immField (commandWord op imm) = imm :=
  BitVec.extractLsb'_append_eq_right

/-- R92: the opcode map decides what a word with `Z = 0` stands for. -/
theorem decode_commandWord (op imm : Byte) : decode (commandWord op imm) = decodeOp op imm := by
  unfold decode
  rw [if_pos (zField_commandWord op imm), opField_commandWord, immField_commandWord]

/-! ## The opcode map (R91, R92) -/

theorem countCommand_of_ne {n : Byte} (h : n ≠ 0#8) (i : Instr) : countCommand n i = .command i :=
  if_pos (bne_iff_ne.mpr h)

/-- Settles O1: each row is a word built from its fields, and the opcode map holds that row. -/
theorem decodeReadsTheOpcodeMap : Obligations.DecodeReadsTheOpcodeMap := by
  have row := decode_commandWord
  have countRow {op n : Byte} {i : Instr} (hop : decodeOp op n = countCommand n i) (hn : n ≠ 0#8) :
      decode (commandWord op n) = .command i := by
    rw [decode_commandWord, hop, countCommand_of_ne hn]
  exact ⟨row 0x00 0, row 0x01 0, row 0x02 0, row 0x10 0, row 0x11, row 0x12 0, row 0x13 0, row 0x20 0, row 0x21,
    row 0x22 0, row 0x23 0, row 0x24 0, fun _ => countRow (op := 0x25) rfl, row 0x28 0, row 0x29 0, row 0x2A 0,
    row 0x30 0, row 0x31 0, row 0x32 0, fun _ => countRow (op := 0x33) rfl, row 0x3F 0⟩

/-! ## The illegal words (R93) -/

/-- R92: a row whose `IMM` column is 0 is a command without operand. -/
theorem decodeOp_of_plain {op : Byte} (h : op ∈ plainOpcodes) : ∃ i, ∀ imm, decodeOp op imm = plainCommand imm i := by
  fin_cases h <;> exact ⟨_, fun _ => rfl⟩

/-- R92, R93 case 2: the map has no rows but those of the two lists. -/
theorem decodeOp_of_unassigned {op : Byte} (h : op ∉ plainOpcodes ++ operandOpcodes) (imm : Byte) :
    decodeOp op imm = .illegal .opcode := by
  have ne {k : Nat} (hk : BitVec.ofNat 8 k ∈ plainOpcodes ++ operandOpcodes) : op.toNat ≠ k := by
    rintro rfl
    exact h (by rwa [BitVec.ofNat_toNat, BitVec.setWidth_eq] at hk)
  unfold decodeOp
  split
  case h_22 => rfl
  all_goals
    rename_i heq
    exact absurd heq (ne (by decide))

/-- R93 case 3. -/
theorem plainCommand_illegal_iff {imm : Byte} {i : Instr} :
    (∃ why, plainCommand imm i = .illegal why) ↔ imm ≠ 0#8 := by
  unfold plainCommand
  split <;> simp [*]

/-- R93 case 4. -/
theorem countCommand_illegal_iff {n : Byte} {i : Instr} : (∃ why, countCommand n i = .illegal why) ↔ n = 0#8 := by
  by_cases hn : n = 0#8
  · subst hn
    exact iff_of_true ⟨.zeroCount, rfl⟩ rfl
  · simp [countCommand_of_ne hn, hn]

/-- R93 cases 2 to 4: the illegal opcodes and operands of a word with `Z = 0`. -/
theorem decodeOp_illegal_iff {op imm : Byte} :
    (∃ why, decodeOp op imm = .illegal why) ↔
      op ∉ plainOpcodes ++ operandOpcodes ∨ (op ∈ plainOpcodes ∧ imm ≠ 0#8) ∨
        ((op = 0x25#8 ∨ op = 0x33#8) ∧ imm = 0#8) := by
  by_cases hassigned : op ∈ plainOpcodes ++ operandOpcodes
  case neg => exact iff_of_true ⟨_, decodeOp_of_unassigned hassigned imm⟩ (.inl hassigned)
  obtain hplain | hoperand := List.mem_append.mp hassigned
  · obtain ⟨i, hi⟩ := decodeOp_of_plain hplain
    have hcount : ¬ (op = 0x25#8 ∨ op = 0x33#8) := by
      rintro (rfl | rfl) <;> exact absurd hplain (by decide)
    simp only [hi, plainCommand_illegal_iff, hassigned, hplain, hcount, not_true_eq_false, true_and, false_and,
      or_false, false_or]
  · simp only [List.mem_cons, List.not_mem_nil, or_false] at hoperand
    obtain rfl | rfl | rfl | rfl := hoperand <;> simp [decodeOp, countCommand_illegal_iff]

/-- R93: `Z` comes first; only with `Z = 0` do the opcode and the operand decide. -/
theorem decode_illegal_iff {v : Word} :
    (∃ why, decode v = .illegal why) ↔
      zField v ≠ 0#16 ∨ ∃ why, decodeOp (opField v) (immField v) = .illegal why := by
  unfold decode
  split <;> simp [*]

end Sys2Proof

namespace Sys2Proof.Machine

/-! ## Writing an illegal word (R273) -/

/-- R273: an illegal word sets `errIll` and has no other effect. -/
theorem runWord_of_illegal {v : Word} {why : IllegalWord} (h : decode v = .illegal why) (s : State) :
    runWord v s = .next s.illegal := by
  unfold runWord
  rw [h]

theorem illegalWrite_of_illegal {v : Word} (h : ∃ why, decode v = .illegal why) : IllegalWrite v := by
  refine ⟨h, fun s => ?_⟩
  obtain ⟨why, hwhy⟩ := h
  calc onInput s (.hostWrite 0x00#8 32 v)
    _ = runWord v ((s.pushInput (.hostWrite 0x00#8 32 v)).setInputs s.inputs) := step_of_cmdWrite rfl
    _ = .next s.illegal := by rw [pushInput_setInputs, runWord_of_illegal hwhy]

/-- Settles O4: the four cases are those of `decode` and `decodeOp`, and a write of an illegal word runs to
`State.illegal`. -/
theorem illegalWordsSetErrIllOnly : Obligations.IllegalWordsSetErrIllOnly := by
  refine ⟨fun v => ?_, fun v => illegalWrite_of_illegal, by decide +kernel⟩
  exact decode_illegal_iff.trans (or_congr_right decodeOp_illegal_iff)

end Sys2Proof.Machine
end

section
/-! PROOFS. The statements about 40_checksum.md. A run of `CK_INIT` and feeds ends with `feedAll` of the fed bytes
(`runInputs_ckInit_feeds`), and `feedAll` is `sum8`, `xor8` and the CRC fold of those bytes (`feedAll_eq`). The laws of R131
are algebra of bytes, and one fact about the CRC register: with an odd polynomial a shift is injective. -/

namespace Sys2Proof.Machine

/-! ## Commands without operand, and runs of commands (R91, R93, R104) -/

/-- R91, R93 case 3: an opcode whose row is a plain command takes no operand. -/
theorem takesNoOperand_of_decodeOp {op : Byte} {i : Instr} (h : ∀ imm, decodeOp op imm = plainCommand imm i) :
    TakesNoOperand op i := by
  refine ⟨(decode_commandWord op 0#8).trans (h 0#8), fun imm himm => illegalWrite_of_illegal (v := commandWord op imm) ?_⟩
  rw [decode_commandWord, h]
  exact plainCommand_illegal_iff.mpr himm

theorem run_succ_of_step {s t : State} (h : step s = .next t) (k : Nat) :
    Sys2Proof.core.run (k + 1) s = Sys2Proof.core.run k t := by
  have hrun := Host.Core.run.eq_2 Sys2Proof.core s k
  rw [show Sys2Proof.core.step s = .next t from h] at hrun
  exact hrun

/-- R40, R104: the first command of a list runs with the writes of the others still to come. -/
theorem runInputs_command_cons {s t : State} {i : Instr} {is : List Instr} (hdec : decode (encode i) = .command i)
    (hexec : exec i (s.setInputs (commandEvents is)) = .next (t.setInputs (commandEvents is))) :
    runInputs s (commandEvents (i :: is)) = runInputs t (commandEvents is) := by
  have hstep : step (s.setInputs (commandEvents (i :: is))) = .next (t.setInputs (commandEvents is)) := by
    rw [step_of_cmdWrite (v := encode i) (rest := commandEvents is) rfl, setInputs_setInputs, runWord_of_command hdec,
      hexec]
  exact run_succ_of_step hstep _

/-! ## What the checksum commands do (R127 to R130) -/

theorem exec_ckInit (s : State) : exec .ckInit s = .next (s.setCk (ckStart s.crc)) := rfl

theorem exec_ckFeed (b : Byte) (s : State) : exec (.ckFeed b) s = .next (s.setCk (feed s.crc s.ck b)) := rfl

theorem exec_ckFeedTx (s : State) : exec .ckFeedTx s = .next (s.setCk (feedAll s.crc s.ck s.txPayload)) := rfl

theorem exec_ckFeedRx (s : State) : exec .ckFeedRx s = .next (s.setCk (feedAll s.crc s.ck s.rxPayload)) := rfl

/-- R126: a `CK_FEED` of each byte of a sequence ends with `feedAll` of the sequence. -/
theorem runInputs_feeds (s : State) (bs : List Byte) :
    runInputs s (commandEvents (bs.map .ckFeed)) = .next ((s.setCk (feedAll s.crc s.ck bs)).setInputs []) := by
  induction bs generalizing s with
  | nil => rfl
  | cons b bs ih =>
    calc runInputs s (commandEvents (.ckFeed b :: bs.map .ckFeed))
      _ = runInputs (s.setCk (feed s.crc s.ck b)) (commandEvents (bs.map .ckFeed)) :=
        runInputs_command_cons (decode_commandWord 0x11#8 b) (exec_ckFeed b _)
      _ = .next ((s.setCk (feedAll s.crc s.ck (b :: bs))).setInputs []) := ih _

/-- R126, R127: `CK_INIT` and then the feeds. -/
theorem runInputs_ckInit_feeds (s : State) (bs : List Byte) :
    runInputs s (commandEvents (.ckInit :: bs.map .ckFeed)) =
      .next ((s.setCk (feedAll s.crc (ckStart s.crc) bs)).setInputs []) := by
  calc runInputs s (commandEvents (.ckInit :: bs.map .ckFeed))
    _ = runInputs (s.setCk (ckStart s.crc)) (commandEvents (bs.map .ckFeed)) :=
      runInputs_command_cons (decode_commandWord 0x10#8 0#8) (exec_ckInit _)
    _ = .next ((s.setCk (feedAll s.crc (ckStart s.crc) bs)).setInputs []) := runInputs_feeds _ bs

/-! ## The sums as operations on bytes (R120, R122) -/

/-- R10: the sum of two bytes is their sum modulo 256. -/
theorem add_eq_ofNat_mod (x y : Byte) : x + y = BitVec.ofNat 8 ((x.toNat + y.toNat) % 256) := by
  apply BitVec.eq_of_toNat_eq
  simp

theorem negByte_eq_neg (x : Byte) : negByte x = -x := by
  apply BitVec.eq_of_toNat_eq
  simp [negByte]

theorem twoc8_eq_neg (bs : List Byte) : twoc8 bs = -sum8 bs := negByte_eq_neg (sum8 bs)

@[simp] theorem sum8_nil : sum8 [] = 0#8 := rfl

@[simp] theorem sum8_cons (b : Byte) (bs : List Byte) : sum8 (b :: bs) = b + sum8 bs := by
  simp [sum8, BitVec.ofNat_add]

@[simp] theorem sum8_append (a b : List Byte) : sum8 (a ++ b) = sum8 a + sum8 b := by
  simp [sum8, BitVec.ofNat_add]

/-- R128: 256 equal bytes bring an 8-bit sum back. -/
theorem sum8_replicate_256 (b : Byte) : sum8 (List.replicate 256 b) = 0#8 := by
  apply BitVec.eq_of_toNat_eq
  rw [sum8, List.map_replicate, List.sum_replicate]
  simp

theorem sum8_perm {a b : List Byte} (h : a.Perm b) : sum8 a = sum8 b :=
  congrArg (BitVec.ofNat 8) (h.map BitVec.toNat).sum_eq

@[simp] theorem xor8_nil : xor8 [] = 0#8 := rfl

@[simp] theorem xor8_cons (b : Byte) (bs : List Byte) : xor8 (b :: bs) = b ^^^ xor8 bs := rfl

@[simp] theorem xor8_append (a b : List Byte) : xor8 (a ++ b) = xor8 a ^^^ xor8 b := by
  induction a with
  | nil => simp
  | cons x a ih => simp [ih, BitVec.xor_assoc]

theorem xor8_perm {a b : List Byte} (h : a.Perm b) : xor8 a = xor8 b := by
  induction h with
  | nil => rfl
  | cons x _ ih => rw [xor8_cons, xor8_cons, ih]
  | swap x y l => simp only [xor8_cons, ← BitVec.xor_assoc, BitVec.xor_comm y]
  | trans _ _ iha ihb => exact iha.trans ihb

/-- R124: the Bosch checksum is the sum of the length byte and the payload. -/
theorem boschChk_eq_sum8 (p : List Byte) : boschChk p = sum8 (BitVec.ofNat 8 p.length :: p) := by
  rw [sum8_cons]
  exact BitVec.add_comm _ _

/-! ## The accumulators after a sequence (R42, R126) -/

/-- `Feed` with its sum written as R126 writes it. -/
theorem feed_eq (cfg : CrcCfg) (a : CkAcc) (b : Byte) :
    feed cfg a b = { ckSum := BitVec.ofNat 8 ((a.ckSum.toNat + b.toNat) % 256), ckXor := a.ckXor ^^^ b,
                     ckCrc := crcStep cfg a.ckCrc b } := by
  rw [← add_eq_ofNat_mod]
  rfl

/-- R126: the three accumulators advance together, each by its own function of the sequence. -/
theorem feedAll_eq (cfg : CrcCfg) (a : CkAcc) (bs : List Byte) :
    feedAll cfg a bs =
      { ckSum := a.ckSum + sum8 bs, ckXor := a.ckXor ^^^ xor8 bs, ckCrc := bs.foldl (crcStep cfg) a.ckCrc } := by
  induction bs generalizing a with
  | nil => simp [feedAll]
  | cons b bs ih =>
    calc feedAll cfg a (b :: bs)
      _ = feedAll cfg (feed cfg a b) bs := rfl
      _ = _ := by simp [ih, feed, BitVec.add_assoc, BitVec.xor_assoc]

theorem feedAll_ckStart (cfg : CrcCfg) (bs : List Byte) :
    feedAll cfg (ckStart cfg) bs =
      { ckSum := sum8 bs, ckXor := xor8 bs, ckCrc := bs.foldl (crcStep cfg) cfg.crcInit } := by
  simp [feedAll_eq, ckStart]

/-- R126: what a host reads from `CK_RESULT` after a new checksum over `bs`. -/
theorem ckResult_ckInit_feeds (s : State) (bs : List Byte) :
    ∃ t, runInputs s (commandEvents (.ckInit :: bs.map .ckFeed)) = .next t ∧
      regRead .ckResult t = (crc8 s.crc bs ++ xor8 bs ++ twoc8 bs ++ sum8 bs : BitVec 32) := by
  refine ⟨_, runInputs_ckInit_feeds s bs, ?_⟩
  rw [feedAll_ckStart]
  rfl

section Fields

variable (crc xor twoc sum : Byte)

/-- R42: field `SUM8` of a `CK_RESULT` word. -/
theorem sum8Field_eq : (crc ++ xor ++ twoc ++ sum : BitVec 32).extractLsb' 0 8 = sum :=
  BitVec.extractLsb'_append_eq_right

/-- R42: field `TWOC8` of a `CK_RESULT` word. -/
theorem twoc8Field_eq : (crc ++ xor ++ twoc ++ sum : BitVec 32).extractLsb' 8 8 = twoc := by
  rw [BitVec.extractLsb'_append_eq_of_le (by decide), BitVec.extractLsb'_append_eq_right]

/-- R42: field `CRC8` of a `CK_RESULT` word. -/
theorem crc8Field_eq : (crc ++ xor ++ twoc ++ sum : BitVec 32).extractLsb' 24 8 = crc := by
  rw [BitVec.extractLsb'_append_eq_of_le (by decide), BitVec.extractLsb'_append_eq_of_le (by decide),
    BitVec.extractLsb'_append_eq_left]

end Fields

/-! ## The CRC register (R121, R123) -/

/-- R121. -/
theorem getLsbD_reflect8 (x : Byte) {i : Nat} (hi : i < 8) : (reflect8 x).getLsbD i = x.getLsbD (7 - i) := by
  simp only [reflect8, BitVec.getLsbD_append, BitVec.getLsbD_ofBool]
  interval_cases i <;> simp

theorem reflect8_involutive : Function.Involutive reflect8 := by
  intro x
  apply BitVec.eq_of_getLsbD_eq
  intro i hi
  rw [getLsbD_reflect8 _ hi, getLsbD_reflect8 _ (by omega), show 7 - (7 - i) = i by omega]

theorem crcIn_injective (cfg : CrcCfg) : Function.Injective (crcIn cfg) := by
  unfold crcIn
  split
  · exact reflect8_involutive.injective
  · exact Function.injective_id

theorem crcOut_injective (cfg : CrcCfg) : Function.Injective (crcOut cfg) := by
  intro c d h
  have hreflected := (BitVec.xor_left_inj _).mp h
  split at hreflected
  · exact reflect8_involutive.injective hreflected
  · exact hreflected

theorem crcShift_zero (poly : Byte) : crcShift poly 0#8 = 0#8 := rfl

theorem crcShifts_zero (poly : Byte) (n : Nat) : crcShifts poly n 0#8 = 0#8 := by
  induction n with
  | zero => rfl
  | succ n ih => rw [crcShifts, crcShift_zero, ih]

section OddPolynomial

variable {poly : Byte} (hodd : poly.getLsbD 0 = true)
include hodd

/-- The bit an odd polynomial brings in at the bottom is the bit shifted out at the top. -/
theorem getLsbD_zero_crcShift (c : Byte) : (crcShift poly c).getLsbD 0 = c.getLsbD 7 := by
  unfold crcShift
  split <;> simp_all

theorem crcShift_injective : Function.Injective (crcShift poly) := by
  intro c d h
  have htop : c.getLsbD 7 = d.getLsbD 7 := by
    rw [← getLsbD_zero_crcShift hodd c, ← getLsbD_zero_crcShift hodd d, h]
  have hshift : c <<< 1 = d <<< 1 := by
    unfold crcShift at h
    rw [htop] at h
    split at h
    · exact (BitVec.xor_left_inj _).mp h
    · exact h
  apply BitVec.eq_of_getLsbD_eq
  intro i hi
  obtain rfl | hlow := Nat.eq_or_lt_of_le (Nat.le_of_lt_succ hi)
  · exact htop
  · have hbit := congrArg (fun x => x.getLsbD (i + 1)) hshift
    simpa [hi, show i + 1 < 8 by omega] using hbit

theorem crcShifts_injective (n : Nat) : Function.Injective (crcShifts poly n) := by
  induction n with
  | zero => exact Function.injective_id
  | succ n ih => exact ih.comp (crcShift_injective hodd)

end OddPolynomial

section OddConfiguration

variable {cfg : CrcCfg} (hodd : cfg.crcPoly.getLsbD 0 = true)
include hodd

theorem crcStep_left_injective (b : Byte) : Function.Injective (fun c => crcStep cfg c b) := by
  intro c d h
  exact (BitVec.xor_left_inj _).mp (crcShifts_injective hodd 8 h)

theorem crcStep_right_injective (c : Byte) : Function.Injective (crcStep cfg c) := by
  intro x y h
  exact crcIn_injective cfg ((BitVec.xor_right_inj _).mp (crcShifts_injective hodd 8 h))

/-- Two different registers stay different over the same bytes. -/
theorem foldl_crcStep_injective (bs : List Byte) : Function.Injective (fun c => bs.foldl (crcStep cfg) c) := by
  induction bs with
  | nil => exact Function.injective_id
  | cons b bs ih => exact ih.comp (crcStep_left_injective hodd b)

/-- R131 law 5: one changed byte changes the register, and the bytes after it keep the registers apart. -/
theorem crc8_change (a b : List Byte) {x y : Byte} (hxy : x ≠ y) : crc8 cfg (a ++ x :: b) ≠ crc8 cfg (a ++ y :: b) := by
  intro h
  have hregister := crcOut_injective cfg h
  simp only [List.foldl_append, List.foldl_cons] at hregister
  exact hxy (crcStep_right_injective hodd _ (foldl_crcStep_injective hodd b hregister))

end OddConfiguration

/-! ## The laws (R131) -/

/-- R131 law 2. -/
theorem sum8_append_twoc8 (seq : List Byte) : sum8 (seq ++ [twoc8 seq]) = 0#8 := by
  simp [twoc8_eq_neg]

theorem toNat_sum8_add_twoc8 (seq : List Byte) : ((sum8 seq).toNat + (twoc8 seq).toNat) % 256 = 0 := by
  have h := congrArg BitVec.toNat (sum8_append_twoc8 seq)
  simpa using h

/-- R131 law 3. -/
theorem xor8_append_xor8 (seq : List Byte) : xor8 (seq ++ [xor8 seq]) = 0#8 := by
  simp

/-- R131 law 4: the register meets itself, and 0 shifts to 0. -/
theorem crc8_append_crc8 {cfg : CrcCfg} (seq : List Byte) (hin : cfg.crcRefin = false) (hout : cfg.crcRefout = false)
    (hxor : cfg.crcXorout = 0#8) : crc8 cfg (seq ++ [crc8 cfg seq]) = 0#8 := by
  have hcrcOut (c : Byte) : crcOut cfg c = c := by simp [crcOut, hout, hxor]
  have hstep (c : Byte) : crcStep cfg c c = 0#8 := by simp [crcStep, crcIn, hin, crcShifts_zero]
  simp [crc8, hcrcOut, hstep]

section Change

variable (a b : List Byte) {x y : Byte} (hxy : x ≠ y)
include hxy

/-- R131 law 5. -/
theorem sum8_change : sum8 (a ++ x :: b) ≠ sum8 (a ++ y :: b) := by
  simpa using hxy

theorem twoc8_change : twoc8 (a ++ x :: b) ≠ twoc8 (a ++ y :: b) := by
  rw [twoc8_eq_neg, twoc8_eq_neg, ne_eq, BitVec.neg_inj]
  exact sum8_change a b hxy

theorem xor8_change : xor8 (a ++ x :: b) ≠ xor8 (a ++ y :: b) := by
  simpa using hxy

end Change

/-! ## The obligations -/

/-- Settles O10: the word decodes to `CK_INIT`, which loads `ckStart`; field `CRC8` is then `crcOut` of `crcInit`. -/
theorem ckInitStartsANewChecksum : Obligations.CkInitStartsANewChecksum :=
  ⟨takesNoOperand_of_decodeOp fun _ => rfl, fun s => ⟨_, exec_ckInit s, rfl, crc8Field_eq _ _ _ _⟩⟩

/-- Settles O12: both commands are `feedAll` of their payload, and the payload of length 0 is empty. -/
theorem ckFeedOfABufferFeedsItsPayload : Obligations.CkFeedOfABufferFeedsItsPayload := by
  refine ⟨takesNoOperand_of_decodeOp fun _ => rfl, takesNoOperand_of_decodeOp fun _ => rfl,
    fun s => ⟨exec_ckFeedTx s, exec_ckFeedRx s, fun hlen => ?_, fun hcommit => ?_⟩⟩
  · have hempty : s.txPayload = [] := by simp [State.txPayload, hlen]
    rw [exec_ckFeedTx, hempty]
    rfl
  · have hempty : s.rxPayload = [] := by simp [State.rxPayload, hcommit]
    rw [exec_ckFeedRx, hempty]
    rfl

/-- Settles O11: the command is `feed`; the corner cases are `feedAll` of 256 bytes of 0x01, whose sum is 0, and of the
pair, whose exclusive OR is 0. -/
theorem ckFeedAdvancesTheAccumulators : Obligations.CkFeedAdvancesTheAccumulators := by
  refine ⟨decode_commandWord 0x11#8, fun b s => ?_, fun s => ?_, fun b s => ?_⟩
  · rw [exec_ckFeed, feed_eq]
    rfl
  · rw [← List.map_replicate]
    refine ⟨_, runInputs_feeds s _, ?_⟩
    calc (feedAll s.crc s.ck (List.replicate 256 0x01#8)).ckSum
      _ = s.ck.ckSum + sum8 (List.replicate 256 0x01#8) := by rw [feedAll_eq]
      _ = s.ck.ckSum := by rw [sum8_replicate_256, BitVec.add_zero]
  · refine ⟨_, runInputs_feeds s [b, b], ?_⟩
    simp [feedAll_eq]

/-- Settles O13: by `feed_eq` and by the closed form of `feedAll`. -/
theorem ckResultIsTheFourChecksums : Obligations.CkResultIsTheFourChecksums :=
  ⟨feed_eq, ckResult_ckInit_feeds⟩

/-- Settles O14: the two frame checksums are fields of the word that `ckResult_ckInit_feeds` gives. -/
theorem frameChecksumsAreCkResultFields : Obligations.FrameChecksumsAreCkResultFields := by
  intro s p _
  obtain ⟨t, ht, hword⟩ := ckResult_ckInit_feeds s (BitVec.ofNat 8 p.length :: p)
  obtain ⟨u, hu, hword'⟩ := ckResult_ckInit_feeds s p
  refine ⟨boschChk_eq_sum8 p, ?_, ⟨t, ht, ?_⟩, rfl, ⟨u, hu, ?_⟩⟩
  · rw [BitVec.ofNat_add, BitVec.ofNat_toNat, BitVec.setWidth_eq]
    rfl
  · rw [hword, sum8Field_eq, boschChk_eq_sum8]
  · rw [hword', twoc8Field_eq]
    rfl

/-- Settles O15: the laws above, with the reset configuration telling two swapped bytes apart. -/
theorem checksumLaws : Obligations.ChecksumLaws := by
  refine ⟨fun a b => ⟨?_, xor8_append a b⟩, fun seq => ⟨toNat_sum8_add_twoc8 seq, sum8_append_twoc8 seq⟩,
    xor8_append_xor8, fun _ seq => crc8_append_crc8 seq, fun _ a b _ _ hxy => ?_,
    fun _ _ h => ⟨sum8_perm h, xor8_perm h⟩, ⟨crcReset, 1#8, 2#8, by decide, by decide +kernel⟩⟩
  · rw [sum8_append, add_eq_ofNat_mod]
  · exact ⟨sum8_change a b hxy, twoc8_change a b hxy, xor8_change a b hxy, fun hodd => crc8_change hodd a b hxy⟩

end Sys2Proof.Machine
end

section
/-! PROOFS. The statements about 41_framer.md. The buffer commands are a store at index `txLen` (`exec_txPush_of_room`) and
a new `txLen` (`exec_txClr`). Every transmit command is `transmit` of the state it sends, so R150's checks are said once
(`transmit_of_busy`, `transmit_of_badLength`, `transmit_of_accepted`) and each command adds only the bytes of its frame. -/

namespace Sys2Proof.Machine

/-! ## Opcodes with a count (R91, R93) -/

/-- R91, R93 case 4: an opcode whose row is a count command takes a count. -/
theorem takesCount_of_decodeOp {op : Byte} {i : Byte → Instr} (h : ∀ n, decodeOp op n = countCommand n (i n)) :
    TakesCount op i := by
  refine ⟨fun n hn => ?_, illegalWrite_of_illegal (v := commandWord op 0#8) ?_⟩
  · calc decode (commandWord op n)
      _ = countCommand n (i n) := by rw [decode_commandWord, h]
      _ = .command (i n) := countCommand_of_ne hn _
  · rw [decode_commandWord, h]
    exact countCommand_illegal_iff.mpr rfl

theorem withCount_of_ne {n : Byte} (hn : n ≠ 0#8) (s : State) (legal : Result) : withCount n s legal = legal := if_neg hn

/-! ## The payload (R25) -/

@[simp] theorem txPayload_length (s : State) : s.txPayload.length = s.tx.txLen.toNat := firstBytes_length _ _

@[simp] theorem ofNat_txPayload_length (s : State) : BitVec.ofNat 8 s.txPayload.length = s.tx.txLen := by
  rw [txPayload_length, BitVec.ofNat_toNat, BitVec.setWidth_eq]

theorem txLen_le_txBufSize (s : State) : s.tx.txLen.toNat ≤ Config.txBufSize := Nat.le_of_lt_succ s.tx.txLen.isLt

theorem txLen_eq_255_iff {s : State} : s.tx.txLen = 255#8 ↔ s.tx.txLen.toNat = Config.txBufSize := BitVec.toNat_inj.symm

theorem txLen_eq_zero_iff {s : State} : s.tx.txLen = 0#8 ↔ s.tx.txLen.toNat = 0 := BitVec.toNat_inj.symm

/-- Bytes stored right behind the first `n` extend them. -/
theorem firstBytes_of_storedAt {m m' : Memory} {n : Nat} {bs : List Byte} (h : StoredAt m m' n bs) :
    Memory.firstBytes m' (n + bs.length) = Memory.firstBytes m n ++ bs := by
  refine List.ext_getElem (by simp) fun i hi _ => ?_
  rw [firstBytes_length] at hi
  rw [firstBytes_getElem m' hi, h i, List.getElem_append]
  by_cases hin : i < n
  · rw [if_neg (by omega), dif_pos (by simpa using hin), firstBytes_getElem m hin]
  · rw [if_pos (by omega), dif_neg (by simpa using hin), List.getD_eq_getElem _ _ (by omega)]
    simp only [firstBytes_length]

/-! ## The buffer commands (R151, R152) -/

theorem exec_txClr (s : State) : exec .txClr s = .next (s.setTx { s.tx with txLen := 0#8 }) := rfl

theorem exec_txPush_of_full (b : Byte) {s : State} (h : s.tx.txLen = 255#8) :
    exec (.txPush b) s = .next s.rejectTxlen := if_pos (txLen_eq_255_iff.mp h)

theorem exec_txPush_of_room (b : Byte) {s : State} (h : s.tx.txLen ≠ 255#8) :
    exec (.txPush b) s = .next (s.setTx (txAppend b s.tx)) := if_neg (mt txLen_eq_255_iff.mpr h)

theorem txLen_txAppend (b : Byte) {s : State} (h : s.tx.txLen ≠ 255#8) :
    (txAppend b s.tx).txLen.toNat = s.tx.txLen.toNat + 1 := by
  have hne : s.tx.txLen.toNat ≠ 255 := mt txLen_eq_255_iff.mpr h
  simp only [txAppend, BitVec.toNat_add, BitVec.toNat_ofNat]
  omega

theorem storedAt_txAppend (b : Byte) {s : State} (h : s.tx.txLen ≠ 255#8) (hwf : Memory.wf 255 s.tx.txBuf = true) :
    StoredAt s.tx.txBuf (txAppend b s.tx).txBuf s.tx.txLen.toNat [b] := by
  have hne : s.tx.txLen.toNat ≠ 255 := mt txLen_eq_255_iff.mpr h
  exact read_writeList [b] hwf (by simp only [List.length_singleton]; omega)

/-- Refused or not, a push does not look at the inputs to come. -/
theorem exec_txPush_setInputs (b : Byte) (s : State) :
    ∃ t : State, ∀ es, exec (.txPush b) (s.setInputs es) = .next (t.setInputs es) := by
  by_cases h : s.tx.txLen = 255#8
  · exact ⟨s.rejectTxlen, fun es => exec_txPush_of_full b (s := s.setInputs es) h⟩
  · exact ⟨s.setTx (txAppend b s.tx), fun es => exec_txPush_of_room b (s := s.setInputs es) h⟩

/-- Settles O16: the run of the two commands ends in the state whose `txLen` was just cleared. -/
theorem txClrEmptiesTheBuffer : Obligations.TxClrEmptiesTheBuffer := by
  refine ⟨takesNoOperand_of_decodeOp fun _ => rfl, fun s => ⟨exec_txClr s, fun b => ?_⟩⟩
  obtain ⟨t, ht⟩ := exec_txPush_setInputs b s
  refine ⟨(t.setTx { t.tx with txLen := 0#8 }).setInputs [], ?_, rfl⟩
  calc runInputs s (commandEvents [.txPush b, .txClr])
    _ = runInputs t (commandEvents [.txClr]) := runInputs_command_cons (decode_commandWord 0x21#8 b) (ht _)
    _ = runInputs (t.setTx { t.tx with txLen := 0#8 }) [] :=
      runInputs_command_cons (decode_commandWord 0x20#8 0#8) (exec_txClr _)

/-- Settles O17: a push with room is a store of one byte behind the payload, so it extends the payload by that byte. -/
theorem txPushAppendsOrRefuses : Obligations.TxPushAppendsOrRefuses := by
  refine ⟨decode_commandWord 0x21#8, fun b s => ⟨exec_txPush_of_full b, fun hroom hwf => ?_⟩⟩
  have hlen := txLen_txAppend b hroom
  have hstored := storedAt_txAppend b hroom hwf
  refine ⟨_, exec_txPush_of_room b hroom, rfl, hlen, hstored, ?_⟩
  calc Memory.firstBytes (txAppend b s.tx).txBuf (txAppend b s.tx).txLen.toNat
    _ = Memory.firstBytes (txAppend b s.tx).txBuf (s.tx.txLen.toNat + [b].length) := by rw [hlen, List.length_singleton]
    _ = s.txPayload ++ [b] := firstBytes_of_storedAt hstored

/-! ## The checks of a transmit command (R150) -/

section Transmit

variable {lo hi : Nat} {s : State} (sent : State)

theorem transmit_of_busy (hb : s.rx.rxSt = .busy) : transmit lo hi sent s = .next s.rejectHdx := if_pos hb

theorem transmit_of_badLength (hb : s.rx.rxSt ≠ .busy) (hlen : s.tx.txLen.toNat < lo ∨ hi < s.tx.txLen.toNat) :
    transmit lo hi sent s = .next s.rejectTxlen := by
  rw [transmit, if_neg hb, if_pos hlen]

theorem transmit_of_accepted (hb : s.rx.rxSt ≠ .busy) (hlo : lo ≤ s.tx.txLen.toNat) (hhi : s.tx.txLen.toNat ≤ hi) :
    transmit lo hi sent s = .next sent := by
  rw [transmit, if_neg hb, if_neg (by omega)]

/-- A command that refuses no length sends whenever the receiver is not `BUSY`. -/
theorem transmit_anyLength (hb : s.rx.rxSt ≠ .busy) : transmit 0 Config.txBufSize sent s = .next sent :=
  transmit_of_accepted sent hb (Nat.zero_le _) (txLen_le_txBufSize s)

end Transmit

/-! ## The transmit commands (R153 to R159) -/

section Commands

variable (s : State)

theorem exec_txRaw : exec .txRaw s = transmit 0 Config.txBufSize (s.emitSerial s.txPayload) s := rfl

theorem exec_txRawB :
    exec .txRawB s = transmit 0 Config.txBufSize ((s.emitSerial s.txPayload).arm .bosch .bLen 0#12) s := rfl

theorem exec_txRawD :
    exec .txRawD s = transmit 0 Config.txBufSize ((s.emitSerial s.txPayload).arm .denso .dHunt 0#12) s := rfl

theorem exec_txRawC {n : Byte} (hn : n ≠ 0#8) :
    exec (.txRawC n) s =
      transmit 0 Config.txBufSize ((s.emitSerial s.txPayload).arm .raw .rCap (n.setWidth 12)) s :=
  withCount_of_ne hn s _

theorem exec_txBosch :
    exec .txBosch s = transmit 1 Config.txBufSize ((s.emitSerial (encBosch s.txPayload)).arm .bosch .bLen 0#12) s := rfl

theorem exec_txDenso :
    exec .txDenso s = transmit 0 Config.txBufSize ((s.emitSerial (encDenso s.txPayload)).arm .denso .dHunt 0#12) s := rfl

theorem exec_txIsotpSf :
    exec .txIsotpSf s =
      transmit 1 Config.sfCapacity ((s.emitCan (encSF s.can.reqId s.txPayload)).arm .isotp .iFirst 0#12) s := rfl

end Commands

/-- Settles O18: the four commands are `transmit` of the payload with no length refused. -/
theorem rawTransmitSendsTheBuffer : Obligations.RawTransmitSendsTheBuffer := by
  refine ⟨takesNoOperand_of_decodeOp fun _ => rfl, takesNoOperand_of_decodeOp fun _ => rfl,
    takesNoOperand_of_decodeOp fun _ => rfl, takesCount_of_decodeOp fun _ => rfl,
    fun s => ⟨fun hb i hi => ?_, fun hb => ?_⟩⟩
  · obtain hi | ⟨n, hn, rfl⟩ := hi
    · simp only [List.mem_cons, List.not_mem_nil, or_false] at hi
      obtain rfl | rfl | rfl := hi <;> exact transmit_of_busy _ hb
    · exact (exec_txRawC s hn).trans (transmit_of_busy _ hb)
  · exact ⟨(exec_txRaw s).trans (transmit_anyLength _ hb), (exec_txRawB s).trans (transmit_anyLength _ hb),
      (exec_txRawD s).trans (transmit_anyLength _ hb), fun n hn => (exec_txRawC s hn).trans (transmit_anyLength _ hb)⟩

/-! ## The frames (R96 to R98) -/

/-- R96, R157: the Bosch frame of the buffer starts with `txLen`, and its checksum covers that byte. -/
theorem encBosch_txPayload (s : State) :
    encBosch s.txPayload = [s.tx.txLen] ++ s.txPayload ++ [sum8 (s.tx.txLen :: s.txPayload)] := by
  rw [encBosch, boschChk_eq_sum8, ofNat_txPayload_length]
  rfl

/-- R97, R158. -/
theorem encDenso_txPayload (s : State) :
    encDenso s.txPayload = [0x02#8, s.tx.txLen] ++ s.txPayload ++ [twoc8 s.txPayload, 0x03#8] := by
  rw [encDenso, ofNat_txPayload_length]
  rfl

/-- R103: the data bytes of a frame are the bytes it is made from, padded with 0x00 to eight. -/
theorem bytes_canFrameOf (id : BitVec 11) (dlc : Fin 9) {bs : List Byte} (h : bs.length ≤ 8) :
    (canFrameOf id dlc bs).bytes = bs ++ List.replicate (8 - bs.length) Config.padByte := by
  have hbytes : (canFrameOf id dlc bs).bytes = (List.range 8).map (bs.getD · Config.padByte) := rfl
  rw [hbytes]
  refine List.ext_getElem (by simp; omega) fun i _ _ => ?_
  rw [List.getElem_map, List.getElem_range, List.getElem_append]
  by_cases hi : i < bs.length
  · rw [dif_pos hi, List.getD_eq_getElem _ _ hi]
  · rw [dif_neg hi, List.getD_eq_default _ _ (by omega), List.getElem_replicate]

/-- R98, R103, R159: the single frame of the buffer is `txLen`, the payload and the padding. -/
theorem bytes_encSF_txPayload (id : BitVec 11) {s : State} (h : s.tx.txLen.toNat ≤ 7) :
    (encSF id s.txPayload).bytes = [s.tx.txLen] ++ s.txPayload ++ List.replicate (7 - s.tx.txLen.toNat) 0x00#8 := by
  have hfits : (s.tx.txLen :: s.txPayload).length ≤ 8 := by simpa using Nat.lt_succ_of_le h
  rw [encSF, ofNat_txPayload_length, bytes_canFrameOf id 8 hfits, List.length_cons, txPayload_length,
    Nat.add_sub_add_right 7 1]
  rfl

/-- Settles O19: `transmit` of the Bosch frame, from length 1. -/
theorem txBoschSendsABoschFrame : Obligations.TxBoschSendsABoschFrame := by
  refine ⟨takesNoOperand_of_decodeOp fun _ => rfl, fun s => ⟨transmit_of_busy _, fun hb hlen => ?_, fun hb hlen => ?_⟩⟩
  · exact transmit_of_badLength _ hb (.inl (Nat.lt_one_iff.mpr (txLen_eq_zero_iff.mp hlen)))
  · rw [exec_txBosch, encBosch_txPayload]
    exact transmit_of_accepted _ hb (Nat.one_le_iff_ne_zero.mpr (mt txLen_eq_zero_iff.mpr hlen)) (txLen_le_txBufSize s)

/-- Settles O20: `transmit` of the Denso frame, with no length refused. -/
theorem txDensoSendsADensoFrame : Obligations.TxDensoSendsADensoFrame := by
  refine ⟨takesNoOperand_of_decodeOp fun _ => rfl, fun s => ⟨transmit_of_busy _, fun hb => ?_⟩⟩
  rw [exec_txDenso, encDenso_txPayload]
  exact transmit_anyLength _ hb

/-- Settles O21: `transmit` of the single frame, from length 1 to 7. -/
theorem txIsotpSfSendsASingleFrame : Obligations.TxIsotpSfSendsASingleFrame := by
  refine ⟨takesNoOperand_of_decodeOp fun _ => rfl,
    fun s => ⟨transmit_of_busy _, fun hb hlen => ?_, fun hb hlo hhi => ?_⟩⟩
  · exact transmit_of_badLength _ hb (hlen.imp_left Nat.lt_one_iff.mpr)
  · exact ⟨encSF s.can.reqId s.txPayload, rfl, rfl, bytes_encSF_txPayload _ hhi,
      (exec_txIsotpSf s).trans (transmit_of_accepted _ hb hlo hhi)⟩

end Sys2Proof.Machine
end

section
/-! PROOFS. The statements about 42_parser.md. Under the receiver's invariant a serial byte does exactly what its
`ReceiverStep` says (`serialInput_of_serialStep`), so each statement about a phase reads off one constructor. A whole
receive is a chain of those steps, `SerialRun`: a frame is a run through the phases of its family, and what follows it
is stray. -/

namespace Sys2Proof.Machine

/-! ## Arming, cancel and timeout (R181 to R187, R207) -/

section Arming

variable {s : State} {fam : RxFam} {ph : RxPhase} {n : BitVec 12}

theorem armCommand_of_busy (hb : s.rx.rxSt = .busy) : armCommand fam ph n s = .next s.rejectHdx := if_pos hb

theorem armCommand_of_idle (hidle : Idle s) : armCommand fam ph n s = .next (s.arm fam ph n) := if_neg hidle

theorem exec_rxArmB (s : State) : exec .rxArmB s = armCommand .bosch .bLen 0#12 s := rfl

theorem exec_rxArmD (s : State) : exec .rxArmD s = armCommand .denso .dHunt 0#12 s := rfl

theorem exec_rxArmI (s : State) : exec .rxArmI s = armCommand .isotp .iFirst 0#12 s := rfl

theorem exec_rxCap (s : State) {n : Byte} (hn : n ≠ 0#8) :
    exec (.rxCap n) s = armCommand .raw .rCap (n.setWidth 12) s := withCount_of_ne hn s _

theorem exec_rxCancel_of_busy (hb : s.rx.rxSt = .busy) : exec .rxCancel s = .next (s.complete .cancelled) := if_pos hb

theorem exec_rxCancel_of_idle (hidle : Idle s) : exec .rxCancel s = .next s := if_neg hidle

theorem timeoutInput_of_busy (hb : s.rx.rxSt = .busy) :
    timeoutInput s = .next (s.complete (if notStarted s.rx then .timeout else .short)) := if_pos hb

theorem timeoutInput_of_idle (hidle : Idle s) : timeoutInput s = .next s := if_neg hidle

end Arming

/-- R207: the phases in which no frame has started. -/
theorem notStarted_iff {r : RxUnit} :
    notStarted r = true ↔ r.rxPhase ∈ [.bLen, .dHunt, .iFirst] ∨ (r.rxPhase = .rCap ∧ r.rxIdx = 0#12) := by
  unfold notStarted
  split <;> simp [*]

/-- Settles O23: the definitions of `Arm` and `Complete`, field by field. -/
theorem armAndCompleteWriteTheReceiver : Obligations.ArmAndCompleteWriteTheReceiver :=
  ⟨fun _ _ _ _ => rfl, fun _ _ => rfl⟩

/-- Settles O24: the four commands are `armCommand` of their family and first phase. -/
theorem armingCommandsStartAReceive : Obligations.ArmingCommandsStartAReceive := by
  refine ⟨takesNoOperand_of_decodeOp fun _ => rfl, takesNoOperand_of_decodeOp fun _ => rfl,
    takesNoOperand_of_decodeOp fun _ => rfl, takesCount_of_decodeOp fun _ => rfl,
    fun s => ⟨fun hb i hi => ?_, fun hidle => ?_⟩⟩
  · obtain hi | ⟨n, hn, rfl⟩ := hi
    · simp only [List.mem_cons, List.not_mem_nil, or_false] at hi
      obtain rfl | rfl | rfl := hi <;> exact armCommand_of_busy hb
    · exact (exec_rxCap s hn).trans (armCommand_of_busy hb)
  · exact ⟨(exec_rxArmB s).trans (armCommand_of_idle hidle), (exec_rxArmD s).trans (armCommand_of_idle hidle),
      (exec_rxArmI s).trans (armCommand_of_idle hidle),
      fun n hn => (exec_rxCap s hn).trans (armCommand_of_idle hidle)⟩

/-- Settles O25: `RX_CANCEL` is `Complete(CANCELLED)` while `BUSY`. -/
theorem rxCancelEndsABusyReceive : Obligations.RxCancelEndsABusyReceive :=
  ⟨takesNoOperand_of_decodeOp fun _ => rfl, fun _ => ⟨exec_rxCancel_of_busy, exec_rxCancel_of_idle⟩⟩

/-- Settles O26: the timeout completes with the code that `notStarted` chooses. -/
theorem timeoutEndsABusyReceive : Obligations.TimeoutEndsABusyReceive := by
  refine fun s => ⟨fun hb hstart => ?_, fun hb hstart => ?_, timeoutInput_of_idle⟩
  · refine (timeoutInput_of_busy hb).trans ?_
    rw [if_pos (notStarted_iff.mpr hstart)]
    rfl
  · refine (timeoutInput_of_busy hb).trans ?_
    rw [if_neg (mt notStarted_iff.mp hstart)]
    rfl

/-! ## Stray input (R206, R233) -/

theorem serialInput_of_stray {s : State} (h : s.rx.rxSt ≠ .busy ∨ s.rx.rxFam = .isotp) (b : Byte) :
    serialInput b s = .next s.stray := if_pos h

theorem canAccepted_of_idle {s : State} (hidle : Idle s) (f : CanFrame) : canAccepted f s = .next s.stray :=
  if_pos hidle

theorem canAccepted_of_serialFamily {s : State} (hfam : s.rx.rxFam ∈ [.bosch, .denso, .raw]) (f : CanFrame) :
    canAccepted f s = .next s.stray := by
  simp only [List.mem_cons, List.not_mem_nil, or_false] at hfam
  obtain h | h | h := hfam <;> simp [canAccepted, h]

theorem canInput_of_respId {s : State} {f : CanFrame} (hid : f.id = s.can.respId) :
    canInput f s = canAccepted f s := if_pos hid

/-- Settles O27: both inputs end in `State.stray`. -/
theorem strayInputIsDropped : Obligations.StrayInputIsDropped := by
  refine fun s => ⟨fun b h => serialInput_of_stray h b, fun f hid h => (canInput_of_respId hid).trans ?_⟩
  obtain hidle | hfam := h
  · exact canAccepted_of_idle hidle f
  · exact canAccepted_of_serialFamily hfam f

/-! ## A serial byte for an armed receiver (R188) -/

section Receiver

variable {r r' : RxUnit} {b : Byte}

/-- R33: a receiver that is in a phase is `BUSY`, and what the phase says of it holds. -/
theorem phaseInv_of_rxInv {ph : RxPhase} (hinv : RxInv r) (hp : r.rxPhase = ph) (hne : ph ≠ .none) :
    r.rxSt = .busy ∧ PhaseInv ph r := by
  have hb : r.rxSt = .busy := by
    have ⟨hnone, _⟩ := hinv
    by_contra hidle
    exact hne (hp.symm.trans (hnone.mpr hidle))
  obtain ⟨-, hphase, -⟩ := (rxInv_busy_iff hb hp).mp hinv
  exact ⟨hb, hphase⟩

/-- R180, R206: a receiver in a serial phase takes serial bytes. -/
theorem armed_of_serialStep (hinv : RxInv r) (h : ReceiverStep r (.serialRx b) r') :
    r.rxSt = .busy ∧ r.rxFam ≠ .isotp := by
  cases h with
  | boschLen hp | boschBody hp | boschCheck hp | densoHunt hp | densoLen hp | densoBody hp | densoCheck hp
  | densoEtx hp | capture hp =>
    obtain ⟨hb, hfam, -⟩ := phaseInv_of_rxInv hinv hp nofun
    exact ⟨hb, by simp [hfam]⟩

theorem rxInv_serialStep (hinv : RxInv r) (h : ReceiverStep r (.serialRx b) r') : RxInv r' :=
  rxInv_receiverStep (armed_of_serialStep hinv h).1 hinv h

/-- R65: a byte that is still expected has room in `RXBUF`. -/
theorem storing_of_lt {s : State} (h : s.rx.rxIdx < s.rx.rxExp) (r : RxUnit) : storing s r = .next (s.setRx r) := by
  refine if_pos ?_
  change s.rx.rxIdx.toNat < 4095
  bv_omega

theorem serialByPhase_of_serialStep {s : State} (hinv : RxInv s.rx) (h : ReceiverStep s.rx (.serialRx b) r) :
    serialByPhase b s = .next (s.setRx r) := by
  unfold serialByPhase
  cases h with
  | boschLen hp | boschCheck hp | densoHunt hp | densoLen hp | densoCheck hp | densoEtx hp => rw [hp]
  | boschBody hp | densoBody hp | capture hp =>
    obtain ⟨-, -, hlt⟩ := phaseInv_of_rxInv hinv hp nofun
    rw [hp]
    exact storing_of_lt hlt _

/-- R188: a serial byte makes the receiver step of its phase and changes nothing else. -/
theorem serialInput_of_serialStep {s : State} (hinv : RxInv s.rx) (h : ReceiverStep s.rx (.serialRx b) r) :
    serialInput b s = .next (s.setRx r) := by
  obtain ⟨hb, hfam⟩ := armed_of_serialStep hinv h
  refine Eq.trans (if_neg ?_) (serialByPhase_of_serialStep hinv h)
  simp [hb, hfam]

theorem boschLen_of_zero (h : b = 0#8) : boschLen b r = rxComplete .empty r := if_pos h

theorem boschLen_of_ne (h : b ≠ 0#8) :
    boschLen b r = { r with rxExp := lengthOfByte b, rxSum := b, rxPhase := .bBody } := if_neg h

theorem densoHunt_of_stx (h : b = Config.stx) : densoHunt b r = { r with rxPhase := .dLen } := if_pos h

theorem densoHunt_of_ne (h : b ≠ Config.stx) : densoHunt b r = r := if_neg h

theorem captureByte_of_last (h : r.rxIdx + 1#12 = r.rxExp) : captureByte b r = rxComplete .ok (rxStored b r) := if_pos h

theorem captureByte_of_more (h : r.rxIdx + 1#12 ≠ r.rxExp) : captureByte b r = rxStored b r := if_neg h

/-- R196: the end of a Denso frame, by its `ETX` byte and the comparison made before. -/
theorem densoEtx_eq (b : Byte) (r : RxUnit) :
    densoEtx b r =
      rxComplete (if b ≠ Config.etx then .frameErr else if r.chkMatch = false then .chkErr else .ok) r := by
  unfold densoEtx
  split
  · rfl
  · cases r.chkMatch <;> rfl

/-- R10: the negation of a byte, as R195 writes it. -/
theorem negByte_eq_ofNat_mod (x : Byte) : negByte x = BitVec.ofNat 8 ((256 - x.toNat) % 256) := by
  apply BitVec.eq_of_toNat_eq
  simp [negByte]

/-- A byte stored at `rxIdx` below the expected length (R190, R194, R197). -/
theorem storedAt_rxStored (hwf : Memory.wf Config.rxBufSize r.rxBuf = true) (hlt : r.rxIdx < r.rxExp) (b : Byte) :
    StoredAt r.rxBuf (rxStored b r).rxBuf r.rxIdx.toNat [b] := by
  refine read_writeList [b] hwf ?_
  change r.rxIdx.toNat + 1 ≤ 4095
  bv_omega

/-- The 12-bit count of the bytes so far does not wrap at the last one. -/
theorem rxIdx_add_one_eq_iff (hlt : r.rxIdx < r.rxExp) :
    r.rxIdx + 1#12 = r.rxExp ↔ r.rxIdx.toNat + 1 = r.rxExp.toNat := by
  bv_omega

end Receiver

/-- R190, R194: a summed payload byte, in the body phase of either family. -/
theorem onInput_bodyByte {s : State} {b : Byte} {body after : RxPhase} (hinv : Inv s) (hp : s.rx.rxPhase = body)
    (hstep : ReceiverStep s.rx (.serialRx b) (bodyByte after b s.rx)) (hlt : s.rx.rxIdx < s.rx.rxExp) :
    ∃ m, StoredAt s.rx.rxBuf m s.rx.rxIdx.toNat [b] ∧
      onInput s (.serialRx b) = .next { s with rx := { s.rx with
        rxBuf := m, rxIdx := s.rx.rxIdx + 1#12, rxSum := s.rx.rxSum + b,
        rxPhase := if s.rx.rxIdx.toNat + 1 = s.rx.rxExp.toNat then after else body } } := by
  obtain ⟨hrx, -, hwf⟩ := hinv
  refine ⟨_, storedAt_rxStored hwf hlt b, (serialInput_of_serialStep hrx hstep).trans ?_⟩
  simp only [← rxIdx_add_one_eq_iff hlt, ← hp]
  rfl

/-- Settles O28: each phase is one receiver step. -/
theorem boschReceiveByPhase : Obligations.BoschReceiveByPhase := by
  intro s b hinv
  have ⟨hrx, _⟩ := hinv
  refine ⟨fun hp => ?_, fun hp => ?_, fun hp => serialInput_of_serialStep hrx (.boschCheck hp)⟩
  · have hlen := serialInput_of_serialStep hrx (.boschLen (b := b) hp)
    refine ⟨fun hzero => ?_, fun hpos => ?_⟩
    · rwa [boschLen_of_zero hzero] at hlen
    · rwa [boschLen_of_ne hpos] at hlen
  · obtain ⟨-, -, hlt⟩ := phaseInv_of_rxInv hrx hp nofun
    exact onInput_bodyByte hinv hp (.boschBody hp) hlt

/-- Settles O29: each phase is one receiver step. -/
theorem densoReceiveByPhase : Obligations.DensoReceiveByPhase := by
  intro s b hinv
  have ⟨hrx, _⟩ := hinv
  refine ⟨fun hp => ?_, fun hp => serialInput_of_serialStep hrx (.densoLen hp), fun hp => ?_, fun hp => ?_,
    fun hp => ?_⟩
  · have hhunt := serialInput_of_serialStep hrx (.densoHunt (b := b) hp)
    refine ⟨fun hstx => ?_, fun hne => ?_⟩
    · rwa [densoHunt_of_stx hstx] at hhunt
    · rwa [densoHunt_of_ne hne] at hhunt
  · obtain ⟨-, -, hlt⟩ := phaseInv_of_rxInv hrx hp nofun
    exact onInput_bodyByte hinv hp (.densoBody hp) hlt
  · rw [← negByte_eq_ofNat_mod]
    exact serialInput_of_serialStep hrx (.densoCheck hp)
  · have hetx := serialInput_of_serialStep hrx (.densoEtx (b := b) hp)
    rwa [densoEtx_eq] at hetx

/-- Settles O30: a capture byte is a store, and completes when it is the last. -/
theorem rawCaptureStoresBytes : Obligations.RawCaptureStoresBytes := by
  intro s b ⟨hrx, _, hwf⟩ hp
  obtain ⟨-, -, hlt⟩ := phaseInv_of_rxInv hrx hp nofun
  have hcap := serialInput_of_serialStep hrx (.capture (b := b) hp)
  refine ⟨_, storedAt_rxStored hwf hlt b, fun hlast => ?_, fun hmore => ?_⟩
  · rwa [captureByte_of_last ((rxIdx_add_one_eq_iff hlt).mpr hlast)] at hcap
  · rwa [captureByte_of_more (mt (rxIdx_add_one_eq_iff hlt).mp hmore)] at hcap

/-! ## Runs of serial bytes -/

/-- A receiver that takes the bytes of a list, one receiver step each, becomes another. -/
inductive SerialRun : RxUnit → List Byte → RxUnit → Prop
  | nil (r : RxUnit) : SerialRun r [] r
  | cons {r r' r'' : RxUnit} {b : Byte} {bs : List Byte} (h : ReceiverStep r (.serialRx b) r')
      (hs : SerialRun r' bs r'') : SerialRun r (b :: bs) r''

theorem SerialRun.append {r r' r'' : RxUnit} {bs cs : List Byte} (hbs : SerialRun r bs r') (hcs : SerialRun r' cs r'') :
    SerialRun r (bs ++ cs) r'' := by
  induction hbs with
  | nil => exact hcs
  | cons h _ ih => exact .cons h (ih hcs)

theorem SerialRun.single {r r' : RxUnit} {b : Byte} (h : ReceiverStep r (.serialRx b) r') : SerialRun r [b] r' :=
  .cons h (.nil r')

/-- The payload a receiver shows: `rxPayload` of a state with that receiver. -/
def RxUnit.payload (r : RxUnit) : List Byte := Memory.firstBytes r.rxBuf r.rxCommit.toNat

theorem rxPayload_eq (s : State) : s.rxPayload = s.rx.payload := rfl

/-- R30, R183: only `OK` leaves a payload. -/
theorem payload_rxComplete (code : RxSt) (r : RxUnit) :
    (rxComplete code r).payload = if code = .ok then Memory.firstBytes r.rxBuf r.rxExp.toNat else [] := by
  unfold RxUnit.payload
  rw [rxComplete_rxCommit]
  split <;> rfl

section Runs

variable {s : State} {r : RxUnit}

/-- R73: the first of the inputs is taken with the others still to come. -/
theorem runInputs_cons {t : State} {e : Event} {es : List Event}
    (h : takeEvent e (s.setInputs es) = .next (t.setInputs es)) : runInputs s (e :: es) = runInputs t es :=
  run_succ_of_step (s := s.setInputs (e :: es)) h es.length

/-- The machine follows a receiver that takes the bytes, and changes nothing else. -/
theorem runInputs_serialRun {r₀ : RxUnit} {bs : List Byte} (hr : s.rx = r₀) (hinv : RxInv r₀)
    (h : SerialRun r₀ bs r) (es : List Event) : runInputs s (serialEvents bs ++ es) = runInputs (s.setRx r) es := by
  induction h generalizing s with
  | nil => rw [← hr]; rfl
  | cons hstep _ ih =>
    subst hr
    calc runInputs s (serialEvents (_ :: _) ++ es)
      _ = runInputs (s.setRx _) (serialEvents _ ++ es) :=
        runInputs_cons (serialInput_of_serialStep (s := s.setInputs _) hinv hstep)
      _ = runInputs (s.setRx _) es := ih rfl (rxInv_serialStep hinv hstep)

theorem takeEvent_serialRx_of_idle (hidle : Idle s) (b : Byte) (es : List Event) :
    takeEvent (.serialRx b) (s.setInputs es) = .next (s.stray.setInputs es) :=
  serialInput_of_stray (s := s.setInputs es) (.inl hidle) b

/-- R206, R207: once no receive is in progress the bytes are stray and the timeout does nothing. -/
theorem runInputs_stray (hidle : Idle s) (bs : List Byte) :
    runInputs s (serialEvents bs ++ [.timer]) = .next ((if bs = [] then s else s.stray).setInputs []) := by
  induction bs generalizing s with
  | nil => exact runInputs_cons (timeoutInput_of_idle (s := s.setInputs []) hidle)
  | cons b bs ih =>
    calc runInputs s (serialEvents (b :: bs) ++ [.timer])
      _ = runInputs s.stray (serialEvents bs ++ [.timer]) :=
        runInputs_cons (takeEvent_serialRx_of_idle hidle b _)
      _ = .next ((if bs = [] then s.stray else s.stray.stray).setInputs []) := ih hidle
      _ = .next (s.stray.setInputs []) := by rw [show s.stray.stray = s.stray from rfl, ite_self]

/-- R207: a timeout while the receive is in progress. -/
theorem runInputs_timer (hb : s.rx.rxSt = .busy) :
    runInputs s [.timer] = .next ((s.complete (if notStarted s.rx then .timeout else .short)).setInputs []) :=
  runInputs_cons (timeoutInput_of_busy (s := s.setInputs []) hb)

end Runs

/-! ## Whole receives, from the arming command to the timeout (R209) -/

/-- The command `i` is no more than the arming of a receive (R181). -/
def Arming (i : Instr) (fam : RxFam) (ph : RxPhase) (n : BitVec 12) : Prop :=
  Starts i fam ph n ∧ decode (encode i) = .command i ∧ ∀ s, exec i s = armCommand fam ph n s

theorem arming_rxArmB : Arming .rxArmB .bosch .bLen 0#12 := ⟨.rxArmB, decode_commandWord 0x30#8 0#8, exec_rxArmB⟩

theorem arming_rxArmD : Arming .rxArmD .denso .dHunt 0#12 := ⟨.rxArmD, decode_commandWord 0x31#8 0#8, exec_rxArmD⟩

section Whole

variable {s : State} {i : Instr} {fam : RxFam} {ph : RxPhase} {n : BitVec 12} {r : RxUnit} {bs : List Byte}

/-- The arming command, and bytes the armed receiver takes. -/
theorem runInputs_arm_serialRun (ha : Arming i fam ph n) (hidle : Idle s) (h : SerialRun (rxArm fam ph n s.rx) bs r)
    (es : List Event) :
    runInputs s (commandEvents [i] ++ (serialEvents bs ++ es)) = runInputs (s.setRx r) es := by
  obtain ⟨hstarts, hdec, hexec⟩ := ha
  have harm (es : List Event) : exec i (s.setInputs es) = .next ((s.arm fam ph n).setInputs es) :=
    (hexec _).trans (armCommand_of_idle (s := s.setInputs es) hidle)
  calc runInputs s (commandEvents [i] ++ (serialEvents bs ++ es))
    _ = runInputs (s.arm fam ph n) (serialEvents bs ++ es) :=
      runInputs_cons ((runWord_of_command hdec _).trans (harm _))
    _ = runInputs (s.setRx r) es := runInputs_serialRun rfl (rxInv_arm hstarts s.rx) h es

/-- A receive that the bytes complete: the bytes that follow and the timeout change neither status nor payload. -/
theorem endsWith_of_complete (ha : Arming i fam ph n) (hidle : Idle s) (h : SerialRun (rxArm fam ph n s.rx) bs r)
    (hend : r.rxSt ≠ .busy) (rest : List Byte) : EndsWith s i (bs ++ rest) r.rxSt r.payload := by
  refine ⟨(if rest = [] then s.setRx r else (s.setRx r).stray).setInputs [], ?_, ?_⟩
  · rw [serialEvents, List.map_append, List.append_assoc, List.append_assoc]
    exact (runInputs_arm_serialRun ha hidle h _).trans (runInputs_stray hend rest)
  · split <;> exact ⟨rfl, rfl⟩

/-- A receive that the bytes leave in progress: the timeout ends it. -/
theorem endsWith_of_timeout (ha : Arming i fam ph n) (hidle : Idle s) (h : SerialRun (rxArm fam ph n s.rx) bs r)
    (hb : r.rxSt = .busy) : EndsWith s i bs (if notStarted r then .timeout else .short) [] := by
  refine ⟨((s.setRx r).complete (if notStarted r then .timeout else .short)).setInputs [], ?_, rfl, ?_⟩
  · rw [List.append_assoc]
    exact (runInputs_arm_serialRun ha hidle h _).trans (runInputs_timer hb)
  · rw [rxPayload_setInputs, rxPayload_eq]
    exact (payload_rxComplete _ r).trans (if_neg (by split <;> simp))

end Whole

/-! ## The payload bytes of a frame (R190, R194) -/

/-- The receiver after the payload bytes `bs`: `bodyByte` of each (`serialRun_bodyBytes`). -/
def bodyBytes (after : RxPhase) (bs : List Byte) (r : RxUnit) : RxUnit :=
  { r with
    rxBuf := Memory.writeList r.rxBuf r.rxIdx.toNat bs
    rxIdx := r.rxIdx + BitVec.ofNat 12 bs.length
    rxSum := r.rxSum + sum8 bs
    rxPhase := if r.rxIdx + BitVec.ofNat 12 bs.length = r.rxExp then after else r.rxPhase }

section Body

variable {r : RxUnit} {after : RxPhase}

theorem bodyBytes_nil_of_ne (h : r.rxIdx ≠ r.rxExp) : bodyBytes after [] r = r := by
  simp [bodyBytes, Memory.writeList, h]

theorem bodyBytes_nil_of_after (h : r.rxPhase = after) : bodyBytes after [] r = r := by
  simp [bodyBytes, Memory.writeList, ← h]

theorem bodyBytes_single (b : Byte) : bodyBytes after [b] r = bodyByte after b r := by
  simp [bodyBytes, bodyByte, rxStored, Memory.writeList]

/-- A byte that is not the last one, and the bytes after it. -/
theorem bodyBytes_cons (hlt : r.rxIdx < r.rxExp) (hmore : r.rxIdx + 1#12 ≠ r.rxExp) (b : Byte) (bs : List Byte) :
    bodyBytes after bs (bodyByte after b r) = bodyBytes after (b :: bs) r := by
  have hidx : (r.rxIdx + 1#12).toNat = r.rxIdx.toNat + 1 := by bv_omega
  have hcount : r.rxIdx + 1#12 + BitVec.ofNat 12 bs.length = r.rxIdx + BitVec.ofNat 12 (bs.length + 1) := by bv_omega
  simp [bodyBytes, bodyByte, rxStored, Memory.writeList, hmore, hidx, hcount, BitVec.add_assoc]

/-- The expected payload bytes, or the first of them, are taken by the body phase of the family. -/
theorem serialRun_bodyBytes {body : RxPhase}
    (hbody : ∀ {r : RxUnit} {b : Byte}, r.rxPhase = body → ReceiverStep r (.serialRx b) (bodyByte after b r))
    (hp : r.rxPhase = body) (hlt : r.rxIdx < r.rxExp) (bs : List Byte)
    (hlen : r.rxIdx.toNat + bs.length ≤ r.rxExp.toNat) : SerialRun r bs (bodyBytes after bs r) := by
  induction bs generalizing r with
  | nil =>
    rw [bodyBytes_nil_of_ne (BitVec.ne_of_lt hlt)]
    exact .nil r
  | cons b bs ih =>
    cases bs with
    | nil =>
      rw [bodyBytes_single]
      exact .single (hbody hp)
    | cons c cs =>
      simp only [List.length_cons] at hlen
      have hmore : r.rxIdx + 1#12 ≠ r.rxExp := by bv_omega
      rw [← bodyBytes_cons hlt hmore]
      refine .cons (hbody hp) (ih ((if_neg hmore).trans hp) (add_one_lt_of_ne hlt hmore) ?_)
      simp only [bodyByte, rxStored_rxIdx, rxStored_rxExp, List.length_cons]
      bv_omega

/-- R207: a receiver among its payload bytes, or right behind them, has started its frame. -/
theorem notStarted_bodyBytes (hafter : after ∈ [.bChk, .dChk]) (hp : r.rxPhase ∈ [.bBody, .dBody, .dChk])
    (bs : List Byte) : notStarted (bodyBytes after bs r) = false := by
  have hphase : (bodyBytes after bs r).rxPhase ∈ [.bBody, .bChk, .dBody, .dChk] := by
    simp only [List.mem_cons, List.not_mem_nil, or_false] at hafter hp ⊢
    simp only [bodyBytes]
    split
    · tauto
    · tauto
  rw [Bool.eq_false_iff, ne_eq, notStarted_iff]
  simp only [List.mem_cons, List.not_mem_nil, or_false] at hphase
  obtain h | h | h | h := hphase <;> simp [h]

/-- The bytes taken from index 0 on are the first bytes of the buffer. -/
theorem firstBytes_bodyBytes (hwf : Memory.wf Config.rxBufSize r.rxBuf = true) (hidx : r.rxIdx = 0#12) {p : List Byte}
    (hlen : p.length ≤ Config.rxBufSize) : Memory.firstBytes (bodyBytes after p r).rxBuf p.length = p := by
  have hstored : StoredAt r.rxBuf (bodyBytes after p r).rxBuf 0 p := by
    simp only [bodyBytes, hidx]
    exact read_writeList p hwf (by simpa using hlen)
  simpa using firstBytes_of_storedAt hstored

end Body

/-! ## Bosch frames (R189 to R191) -/

theorem toNat_lengthOfByte (b : Byte) : (lengthOfByte b).toNat = b.toNat := by
  simp only [lengthOfByte, BitVec.toNat_setWidth]
  omega

/-- R65: a payload whose length is a byte fits in `RXBUF`. -/
theorem length_le_rxBufSize {p : List Byte} {len : Byte} (hlen : p.length = len.toNat) :
    p.length ≤ Config.rxBufSize := by
  have hlt := len.isLt
  simp only [Config.rxBufSize]
  omega

/-- R191: how a frame with length byte `len`, payload `p` and checksum byte `c` ends (`rxSt_boschCheck`). -/
def boschVerdict (len c : Byte) (p : List Byte) : RxSt := if c = len + sum8 p then .ok else .chkErr

section BoschRuns

variable {r : RxUnit} {len : Byte} {p : List Byte}

section Phase

variable (hp : r.rxPhase = .bLen) (hidx : r.rxIdx = 0#12) (hpos : len ≠ 0#8)
include hp hidx hpos

theorem serialRun_boschBody {bs : List Byte} (hlen : bs.length ≤ len.toNat) :
    SerialRun r (len :: bs) (bodyBytes .bChk bs (boschLen len r)) := by
  refine .cons (.boschLen hp) ?_
  rw [boschLen_of_ne hpos]
  refine serialRun_bodyBytes (body := .bBody) .boschBody rfl ?_ bs ?_
  · exact hidx ▸ zero_lt_lengthOfByte hpos
  · simpa [hidx, toNat_lengthOfByte] using hlen

theorem serialRun_boschFrame (hlen : p.length = len.toNat) (c : Byte) :
    SerialRun r (len :: (p ++ [c])) (boschCheck c (bodyBytes .bChk p (boschLen len r))) := by
  refine (serialRun_boschBody hp hidx hpos hlen.le).append (.single (.boschCheck (if_pos ?_)))
  simp [boschLen_of_ne hpos, hidx, hlen, lengthOfByte]

end Phase

theorem rxSt_boschCheck (hpos : len ≠ 0#8) (c : Byte) :
    (boschCheck c (bodyBytes .bChk p (boschLen len r))).rxSt = boschVerdict len c p := by
  rw [boschLen_of_ne hpos]
  rfl

theorem payload_boschCheck (hidx : r.rxIdx = 0#12) (hwf : Memory.wf Config.rxBufSize r.rxBuf = true)
    (hpos : len ≠ 0#8) (hlen : p.length = len.toNat) (c : Byte) :
    (boschCheck c (bodyBytes .bChk p (boschLen len r))).payload = if boschVerdict len c p = .ok then p else [] := by
  have hexp : (boschLen len r).rxExp.toNat = p.length := by
    rw [boschLen_of_ne hpos, hlen]
    exact toNat_lengthOfByte len
  have hbytes : Memory.firstBytes (bodyBytes .bChk p (boschLen len r)).rxBuf p.length = p := by
    rw [boschLen_of_ne hpos]
    exact firstBytes_bodyBytes (after := .bChk) hwf hidx (length_le_rxBufSize hlen)
  rw [← hexp] at hbytes
  rw [← rxSt_boschCheck hpos (r := r)]
  refine (payload_rxComplete _ _).trans ?_
  congr 1

end BoschRuns

section BoschReceives

variable {s : State} (hidle : Idle s)
include hidle

/-- R189: a length byte of 0 ends the receive. -/
theorem endsWith_boschEmpty (rest : List Byte) : EndsWith s .rxArmB (0#8 :: rest) .empty [] :=
  endsWith_of_complete arming_rxArmB hidle (.single (.boschLen rfl)) (by simp [boschLen_of_zero]) rest

/-- R190, R207: a frame that ends before its checksum byte. -/
theorem endsWith_boschShort {len : Byte} (hpos : len ≠ 0#8) {bs : List Byte} (hlen : bs.length ≤ len.toNat) :
    EndsWith s .rxArmB (len :: bs) .short [] := by
  have hrun := serialRun_boschBody (r := rxArm .bosch .bLen 0#12 s.rx) rfl rfl hpos hlen
  rw [boschLen_of_ne hpos] at hrun
  have h := endsWith_of_timeout arming_rxArmB hidle hrun rfl
  rwa [notStarted_bodyBytes (by simp) (by simp), if_neg Bool.false_ne_true] at h

/-- R191: a whole frame, with anything behind it. -/
theorem endsWith_boschFrame (hwf : Memory.wf Config.rxBufSize s.rx.rxBuf = true) {len : Byte} (hpos : len ≠ 0#8)
    {p : List Byte} (hlen : p.length = len.toNat) (c : Byte) (rest : List Byte) :
    EndsWith s .rxArmB (len :: (p ++ c :: rest)) (boschVerdict len c p)
      (if boschVerdict len c p = .ok then p else []) := by
  have h := endsWith_of_complete arming_rxArmB hidle (serialRun_boschFrame rfl rfl hpos hlen c) ?_ rest
  · rw [rxSt_boschCheck hpos, payload_boschCheck (r := rxArm .bosch .bLen 0#12 s.rx) rfl hwf hpos hlen] at h
    simpa using h
  · rw [rxSt_boschCheck hpos]
    unfold boschVerdict
    split <;> nofun

end BoschReceives

/-! ## Denso frames (R192 to R196) -/

/-- R195, R196: how a frame with payload `p`, checksum byte `c` and end byte `e` ends (`densoEnd_eq`). -/
def densoVerdict (c e : Byte) (p : List Byte) : RxSt :=
  if e ≠ Config.etx then .frameErr else if c = twoc8 p then .ok else .chkErr

/-- R192, R193: the receiver after `STX` and the length byte. -/
def densoStart (len : Byte) (r : RxUnit) : RxUnit := densoLen len { r with rxPhase := .dLen }

section DensoRuns

variable {r : RxUnit} {len : Byte} {p : List Byte}

/-- R192: the hunt discards every byte but `STX`. -/
theorem serialRun_hunt (hp : r.rxPhase = .dHunt) {bs : List Byte} (hbs : Config.stx ∉ bs) : SerialRun r bs r := by
  induction bs with
  | nil => exact .nil r
  | cons b bs ih =>
    obtain ⟨hb, hrest⟩ := not_or.mp (mt List.mem_cons.mpr hbs)
    have hstep := ReceiverStep.densoHunt (b := b) hp
    rw [densoHunt_of_ne (Ne.symm hb)] at hstep
    exact .cons hstep (ih hrest)

section Phase

variable (hp : r.rxPhase = .dHunt) (hidx : r.rxIdx = 0#12)
include hp hidx

/-- An empty payload has no body phase (R193). -/
theorem serialRun_densoBody {bs : List Byte} (hlen : bs.length ≤ len.toNat) :
    SerialRun r (Config.stx :: len :: bs) (bodyBytes .dChk bs (densoStart len r)) := by
  have hstx := ReceiverStep.densoHunt (b := Config.stx) hp
  rw [densoHunt_of_stx rfl] at hstx
  refine .cons hstx (.cons (.densoLen rfl) ?_)
  by_cases hzero : len = 0#8
  · obtain rfl : bs = [] := List.eq_nil_of_length_eq_zero (by simpa [hzero] using hlen)
    rw [bodyBytes_nil_of_after (if_pos hzero)]
    exact .nil _
  · refine serialRun_bodyBytes (body := .dBody) .densoBody (if_neg hzero) ?_ bs ?_
    · exact hidx ▸ zero_lt_lengthOfByte hzero
    · simpa [densoStart, densoLen, hidx, toNat_lengthOfByte] using hlen

theorem serialRun_densoCheck (hlen : p.length = len.toNat) (c : Byte) :
    SerialRun r (Config.stx :: len :: (p ++ [c])) (densoCheck c (bodyBytes .dChk p (densoStart len r))) := by
  refine (serialRun_densoBody hp hidx hlen.le).append (.single (.densoCheck (if_pos ?_)))
  simp [densoStart, densoLen, hidx, hlen, lengthOfByte]

theorem serialRun_densoFrame (hlen : p.length = len.toNat) (c e : Byte) :
    SerialRun r (Config.stx :: len :: (p ++ [c, e]))
      (densoEtx e (densoCheck c (bodyBytes .dChk p (densoStart len r)))) := by
  have h := (serialRun_densoCheck hp hidx hlen c).append (.single (.densoEtx (b := e) rfl))
  simpa using h

end Phase

theorem densoEnd_eq (c e : Byte) :
    densoEtx e (densoCheck c (bodyBytes .dChk p (densoStart len r))) =
      rxComplete (densoVerdict c e p) (densoCheck c (bodyBytes .dChk p (densoStart len r))) := by
  have hmatch : (densoCheck c (bodyBytes .dChk p (densoStart len r))).chkMatch = decide (c = twoc8 p) := by
    simp [densoCheck, bodyBytes, densoStart, densoLen, negByte_eq_neg, twoc8_eq_neg]
  rw [densoEtx_eq, hmatch, densoVerdict]
  by_cases hc : c = twoc8 p <;> simp [hc]

theorem payload_densoEnd (hidx : r.rxIdx = 0#12) (hwf : Memory.wf Config.rxBufSize r.rxBuf = true)
    (hlen : p.length = len.toNat) (c e : Byte) :
    (densoEtx e (densoCheck c (bodyBytes .dChk p (densoStart len r)))).payload =
      if densoVerdict c e p = .ok then p else [] := by
  have hexp : (densoStart len r).rxExp.toNat = p.length := (toNat_lengthOfByte len).trans hlen.symm
  have hbytes : Memory.firstBytes (bodyBytes .dChk p (densoStart len r)).rxBuf p.length = p :=
    firstBytes_bodyBytes (after := .dChk) hwf hidx (length_le_rxBufSize hlen)
  rw [← hexp] at hbytes
  rw [densoEnd_eq, payload_rxComplete]
  congr 1

end DensoRuns

section DensoReceives

variable {s : State} (hidle : Idle s)
include hidle

/-- R192, R207: no `STX` at all. -/
theorem endsWith_densoHunt {bs : List Byte} (hbs : Config.stx ∉ bs) : EndsWith s .rxArmD bs .timeout [] :=
  endsWith_of_timeout arming_rxArmD hidle (serialRun_hunt rfl hbs) rfl

/-- R194, R195, R207: a frame that ends before its `ETX` byte. -/
theorem endsWith_densoShort {len : Byte} {bs : List Byte} (hlen : bs.length ≤ len.toNat + 1) :
    EndsWith s .rxArmD (Config.stx :: len :: bs) .short [] := by
  obtain hbody | hcheck := Nat.le_succ_iff.mp hlen
  · have h := endsWith_of_timeout arming_rxArmD hidle (serialRun_densoBody rfl rfl hbody) rfl
    have hphase : (densoStart len (rxArm .denso .dHunt 0#12 s.rx)).rxPhase ∈ [.bBody, .dBody, .dChk] := by
      simp only [densoStart, densoLen]
      split <;> simp
    rwa [notStarted_bodyBytes (by simp) hphase, if_neg Bool.false_ne_true] at h
  · obtain rfl | ⟨p, c, rfl⟩ := List.eq_nil_or_concat' bs
    · simp at hcheck
    · exact endsWith_of_timeout arming_rxArmD hidle (serialRun_densoCheck rfl rfl (by simpa using hcheck) c) rfl

/-- R196: a whole frame behind discarded bytes, with anything behind it. -/
theorem endsWith_densoFrame (hwf : Memory.wf Config.rxBufSize s.rx.rxBuf = true) {junk : List Byte}
    (hjunk : Config.stx ∉ junk) {len : Byte} {p : List Byte} (hlen : p.length = len.toNat) (c e : Byte)
    (rest : List Byte) :
    EndsWith s .rxArmD (junk ++ Config.stx :: len :: (p ++ c :: e :: rest)) (densoVerdict c e p)
      (if densoVerdict c e p = .ok then p else []) := by
  have hrun := (serialRun_hunt (r := rxArm .denso .dHunt 0#12 s.rx) rfl hjunk).append
    (serialRun_densoFrame rfl rfl hlen c e)
  have h := endsWith_of_complete arming_rxArmD hidle hrun ?_ rest
  · rw [payload_densoEnd (r := rxArm .denso .dHunt 0#12 s.rx) rfl hwf hlen, densoEnd_eq] at h
    simpa using h
  · rw [densoEnd_eq, rxComplete_rxSt]
    unfold densoVerdict
    split_ifs <;> nofun

end DensoReceives

/-! ## Single-byte changes (R210) -/

/-- A changed byte of a payload or of the checksum `f` behind it: the checksum byte no longer agrees. -/
theorem set_body_disagrees {f : Byte → Byte} (hf : f.Injective) {p tail : List Byte} {j : Nat} (hj : j ≤ p.length)
    {b : Byte} (hb : (p ++ f (sum8 p) :: tail).getD j 0#8 ≠ b) :
    ∃ q c, (p ++ f (sum8 p) :: tail).set j b = q ++ c :: tail ∧ q.length = p.length ∧ c ≠ f (sum8 q) := by
  obtain hlt | rfl := hj.lt_or_eq
  · refine ⟨p.set j b, f (sum8 p), by rw [List.set_append_left _ _ hlt], List.length_set, fun hsum => ?_⟩
    have hne : p[j] ≠ b := by rwa [List.getD_append _ _ _ _ hlt, List.getD_eq_getElem _ _ hlt] at hb
    have hset : p.set j b = p.take j ++ b :: p.drop (j + 1) := List.set_eq_take_append_cons_drop.trans (if_pos hlt)
    have hsplit : p.take j ++ p[j] :: p.drop (j + 1) = p := by simp
    refine sum8_change (p.take j) (p.drop (j + 1)) hne ?_
    rw [hsplit, ← hset]
    exact hf hsum
  · refine ⟨p, b, by simp, rfl, fun hsum => ?_⟩
    simp [hsum] at hb

theorem toNat_ofNat_length {p : List Byte} (h : p.length ≤ 255) : p.length = (BitVec.ofNat 8 p.length).toNat := by
  simp only [BitVec.toNat_ofNat]
  omega

theorem ofNat_length_ne_zero {p : List Byte} (hpos : 1 ≤ p.length) (h : p.length ≤ 255) :
    BitVec.ofNat 8 p.length ≠ 0#8 := by
  have hlen := toNat_ofNat_length h
  intro hzero
  simp only [hzero, BitVec.toNat_zero] at hlen
  omega

theorem ne_zero_of_lt_toNat {k : Nat} {b : Byte} (h : k < b.toNat) : b ≠ 0#8 := by
  rintro rfl
  exact Nat.not_lt_zero k h

section Changes

variable {s : State} (hidle : Idle s) (hwf : Memory.wf Config.rxBufSize s.rx.rxBuf = true)
  {p : List Byte} (hlen : p.length ≤ 255) {b : Byte}
include hidle hwf hlen

theorem endsWith_boschBadBody (hpos : 1 ≤ p.length) {j : Nat} (hj : j ≤ p.length)
    (hb : (encBosch p).getD (j + 1) 0#8 ≠ b) :
    EndsWith s .rxArmB ((encBosch p).set (j + 1) b) .chkErr [] := by
  have hinj : Function.Injective (· + BitVec.ofNat 8 p.length) := add_left_injective _
  obtain ⟨q, c, hset, hq, hc⟩ := set_body_disagrees hinj (tail := []) hj hb
  have hframe := endsWith_boschFrame hidle hwf (ofNat_length_ne_zero hpos hlen)
    (hq.trans (toNat_ofNat_length hlen)) c []
  rw [boschVerdict, if_neg (by rwa [BitVec.add_comm])] at hframe
  rw [← hset] at hframe
  exact hframe

theorem endsWith_densoBadBody {j : Nat} (hj : j ≤ p.length) (hb : (encDenso p).getD (j + 2) 0#8 ≠ b) :
    EndsWith s .rxArmD ((encDenso p).set (j + 2) b) .chkErr [] := by
  have hinj : Function.Injective negByte := fun x y h => by simpa [negByte_eq_neg] using h
  obtain ⟨q, c, hset, hq, hc⟩ := set_body_disagrees hinj (tail := [Config.etx]) hj hb
  have hframe := endsWith_densoFrame hidle hwf (junk := []) List.not_mem_nil (hq.trans (toNat_ofNat_length hlen)) c
    Config.etx []
  have hverdict : densoVerdict c Config.etx q = .chkErr := (if_neg (not_not_intro rfl)).trans (if_neg hc)
  rw [hverdict, ← hset] at hframe
  exact hframe

theorem endsWith_densoBadEtx (hb : b ≠ Config.etx) :
    EndsWith s .rxArmD ((encDenso p).set (p.length + 3) b) .frameErr [] := by
  have hset : (encDenso p).set (p.length + 3) b =
      Config.stx :: BitVec.ofNat 8 p.length :: (p ++ densoChk p :: b :: []) := by
    simp [encDenso]
  have hframe := endsWith_densoFrame hidle hwf (junk := []) List.not_mem_nil (toNat_ofNat_length hlen) (densoChk p) b []
  have hverdict : densoVerdict (densoChk p) b p = .frameErr := if_pos hb
  rw [hverdict] at hframe
  rw [hset]
  exact hframe

end Changes

/-- Settles O40: a changed payload or checksum byte makes the checksum disagree, a larger `LEN` leaves bytes missing,
and without `STX` the hunt never ends; the examples are whole frames followed by stray bytes or behind discarded
ones. -/
theorem singleByteChangesOfAFrame : Obligations.SingleByteChangesOfAFrame := by
  intro s hidle hwf
  refine ⟨fun p b k hpos hlen hk hle hb => ?_, fun p b k hlen hk hle hb => ?_,
    fun p b hlen hb => endsWith_densoBadEtx hidle hwf hlen hb, fun p b _ hlt => ?_, fun p b hlt => ?_,
    fun p _ _ => endsWith_boschEmpty hidle _, ?_, ?_, fun p b _ hb htail => ?_, ?_⟩
  · obtain ⟨j, rfl⟩ := Nat.exists_eq_add_of_le' hk
    exact endsWith_boschBadBody hidle hwf hlen hpos (by omega) hb
  · obtain ⟨j, rfl⟩ := Nat.exists_eq_add_of_le' hk
    exact endsWith_densoBadBody hidle hwf hlen (by omega) hb
  · exact endsWith_boschShort hidle (ne_zero_of_lt_toNat hlt) (by simpa using hlt)
  · exact endsWith_densoShort hidle (by simpa using hlt)
  · exact endsWith_boschFrame hidle hwf (len := 0x01#8) (by decide) (p := [0x10#8]) rfl 0x11#8 [0x23#8]
  · exact endsWith_densoFrame hidle hwf (junk := []) List.not_mem_nil (len := 0x01#8) (p := [0x10#8]) rfl 0xF0#8 0x03#8
      [densoChk [0x10#8, 0xF0#8, 0x03#8], 0x03#8]
  · exact endsWith_densoHunt hidle (mt List.mem_cons.mp (not_or.mpr ⟨Ne.symm hb, htail⟩))
  · exact endsWith_densoFrame hidle hwf (junk := [0x00#8, 0x03#8, 0xFE#8]) (by decide) (len := 0x00#8) (p := []) rfl
      0x00#8 0x03#8 []

end Sys2Proof.Machine
end

section
/-! PROOFS. The statements about 43_isotp.md. Under the invariant a frame on `respId` goes to the rules of its phase
(`onInput_canRx_iFirst`, `onInput_canRx_iCf`), which choose by `dlc` and PCI; a frame that is not ignored is then
rejected, or its bytes are stored and the receiver advances. -/

namespace Sys2Proof.Machine

/-! ## The fields of a frame (R98 to R100, R102) -/

theorem pci_eq_iff {f : CanFrame} {n : BitVec 4} : f.pci = n ↔ f.d0.toNat / 16 = n.toNat := by
  have hlt := f.d0.isLt
  rw [← BitVec.toNat_inj, CanFrame.pci, BitVec.extractLsb'_toNat, Nat.shiftRight_eq_div_pow]
  omega

theorem lo_toNat (f : CanFrame) : f.lo.toNat = f.d0.toNat % 16 := by
  rw [CanFrame.lo, BitVec.extractLsb'_toNat, Nat.shiftRight_zero]

theorem lo_setWidth (f : CanFrame) : f.lo.setWidth 12 = BitVec.ofNat 12 (f.d0.toNat % 16) := by
  rw [← lo_toNat, BitVec.ofNat_toNat]

/-- R67: the total length is big-endian. -/
theorem totalLength_toNat (f : CanFrame) : f.totalLength.toNat = (f.d0.toNat % 16) * 256 + f.d1.toNat := by
  rw [CanFrame.totalLength, BitVec.toNat_append, lo_toNat, ← Nat.shiftLeft_add_eq_or_of_lt f.d1.isLt,
    Nat.shiftLeft_eq]

theorem totalLength_eq (f : CanFrame) :
    f.totalLength = BitVec.ofNat 12 ((f.d0.toNat % 16) * 256 + f.d1.toNat) := by
  rw [← totalLength_toNat, BitVec.ofNat_toNat, BitVec.setWidth_eq]

theorem slice_length_le (f : CanFrame) (k n : Nat) : (f.slice k n).length ≤ n := List.length_take_le n _

/-! ## The rules of a phase (R230, R232) -/

section Phases

variable {s : State} {f : CanFrame}

theorem canInput_of_otherId (hid : f.id ≠ s.can.respId) : canInput f s = .next s := if_neg hid

/-- R33, R232: a frame on `respId` goes to the rules of the phase of a receiver armed for ISO-TP. -/
theorem onInput_canRx_of_armed (hinv : Inv s) (hid : f.id = s.can.respId) (hp : s.rx.rxPhase ∈ [.iFirst, .iCf]) :
    onInput s (.canRx f) = canByPhase f s := by
  obtain ⟨hrx, -⟩ := hinv
  have hne : s.rx.rxPhase ≠ .none := fun h => by simp [h] at hp
  obtain ⟨hb, -⟩ := phaseInv_of_rxInv hrx rfl hne
  obtain ⟨-, -, -, -, -, -, hfam, -⟩ := hrx
  calc onInput s (.canRx f)
    _ = canAccepted f s := canInput_of_respId hid
    _ = canByPhase f s := by rw [canAccepted, if_neg (not_not_intro hb), hfam hp]

theorem onInput_canRx_iFirst (hinv : Inv s) (hid : f.id = s.can.respId) (hp : s.rx.rxPhase = .iFirst) :
    onInput s (.canRx f) = .next (inFirstPhase f s) := by
  rw [onInput_canRx_of_armed hinv hid (by simp [hp]), canByPhase, hp]

theorem onInput_canRx_iCf (hinv : Inv s) (hid : f.id = s.can.respId) (hp : s.rx.rxPhase = .iCf) :
    onInput s (.canRx f) = .next (inCfPhase f s) := by
  rw [onInput_canRx_of_armed hinv hid (by simp [hp]), canByPhase, hp]

theorem inFirstPhase_of_empty (h : f.dlc.val = 0) : inFirstPhase f s = s.complete .frameErr := if_pos h

theorem inFirstPhase_of_single (hdlc : f.dlc.val ≠ 0) (h : f.d0.toNat / 16 = 0) :
    inFirstPhase f s = singleFrame f s := by
  rw [inFirstPhase, if_neg hdlc, if_pos (pci_eq_iff.mpr h)]

theorem inFirstPhase_of_first (hdlc : f.dlc.val ≠ 0) (h : f.d0.toNat / 16 = 1) :
    inFirstPhase f s = firstFrame f s := by
  simp [inFirstPhase, hdlc, pci_eq_iff, h]

theorem inFirstPhase_of_ignored (hdlc : f.dlc.val ≠ 0) (h : f.d0.toNat / 16 = 2 ∨ f.d0.toNat / 16 = 3) :
    inFirstPhase f s = s := by
  obtain h | h := h <;> simp [inFirstPhase, hdlc, pci_eq_iff, h]

theorem inFirstPhase_of_unknown (hdlc : f.dlc.val ≠ 0) (h : 4 ≤ f.d0.toNat / 16) :
    inFirstPhase f s = s.complete .frameErr := by
  simp only [inFirstPhase, pci_eq_iff, BitVec.toNat_ofNat]
  rw [if_neg hdlc, if_neg (by omega), if_neg (by omega), if_neg (by omega)]

theorem inCfPhase_of_empty (h : f.dlc.val = 0) : inCfPhase f s = s.complete .frameErr := if_pos h

theorem inCfPhase_of_consecutive (hdlc : f.dlc.val ≠ 0) (h : f.d0.toNat / 16 = 2) :
    inCfPhase f s = consecutiveFrame f s := by
  rw [inCfPhase, if_neg hdlc, if_pos (pci_eq_iff.mpr h)]

theorem inCfPhase_of_ignored (hdlc : f.dlc.val ≠ 0) (h : f.d0.toNat / 16 = 3) : inCfPhase f s = s := by
  simp [inCfPhase, hdlc, pci_eq_iff, h]

theorem inCfPhase_of_unexpected (hdlc : f.dlc.val ≠ 0)
    (h : f.d0.toNat / 16 = 0 ∨ f.d0.toNat / 16 = 1 ∨ 4 ≤ f.d0.toNat / 16) :
    inCfPhase f s = s.complete .frameErr := by
  simp only [inCfPhase, pci_eq_iff, BitVec.toNat_ofNat]
  rw [if_neg hdlc, if_neg (by omega), if_neg (by omega)]

end Phases

/-- Settles O31: each kind of frame is one branch of its phase's rules. -/
theorem canFramesIgnoredOrMalformed : Obligations.CanFramesIgnoredOrMalformed := by
  refine fun s f => ⟨canInput_of_otherId, fun hinv hid hp hdlc => ?_, fun hinv hid hp hdlc hpci => ?_,
    fun hinv hid hp hdlc hpci => ?_, fun hinv hid hp hdlc hpci => ?_, fun hinv hid hp hdlc hpci => ?_⟩
  · simp only [List.mem_cons, List.not_mem_nil, or_false] at hp
    obtain hp | hp := hp
    · exact (onInput_canRx_iFirst hinv hid hp).trans (congrArg _ (inFirstPhase_of_empty hdlc))
    · exact (onInput_canRx_iCf hinv hid hp).trans (congrArg _ (inCfPhase_of_empty hdlc))
  · exact (onInput_canRx_iFirst hinv hid hp).trans (congrArg _ (inFirstPhase_of_ignored hdlc hpci))
  · exact (onInput_canRx_iFirst hinv hid hp).trans (congrArg _ (inFirstPhase_of_unknown hdlc hpci))
  · exact (onInput_canRx_iCf hinv hid hp).trans (congrArg _ (inCfPhase_of_ignored hdlc hpci))
  · exact (onInput_canRx_iCf hinv hid hp).trans (congrArg _ (inCfPhase_of_unexpected hdlc hpci))

/-! ## The bytes a frame stores (R65) -/

section Stores

variable {r : RxUnit} (hwf : Memory.wf Config.rxBufSize r.rxBuf = true)
include hwf

/-- R65: the bytes of a frame that end inside `RXBUF` are stored as they are. -/
theorem storedAt_slice (f : CanFrame) {a k n : Nat} (h : a + n ≤ Config.rxBufSize) :
    StoredAt r.rxBuf (rxStoreAll a (f.slice k n) r).rxBuf a (f.slice k n) :=
  read_writeList _ hwf ((Nat.add_le_add_left (slice_length_le f k n) a).trans h)

/-- The bytes owed end at or below the total length, so they fit in `RXBUF` (R239). -/
theorem storedAt_cfAccepted (hlt : r.rxIdx < r.rxExp) (f : CanFrame) :
    StoredAt r.rxBuf (cfAccepted f r).rxBuf r.rxIdx.toNat (f.slice 1 (owedBytes r)) := by
  refine storedAt_slice hwf f ?_
  simp only [owedBytes, Config.cfDataBytes, Config.rxBufSize]
  bv_omega

end Stores

/-! ## Single frames (R234) -/

section Single

variable {s : State} {f : CanFrame}

theorem singleFrame_of_malformed
    (h : f.d0.toNat % 16 = 0 ∨ 7 < f.d0.toNat % 16 ∨ f.dlc.val < 1 + f.d0.toNat % 16) :
    singleFrame f s = s.complete .frameErr := by
  rw [← lo_toNat] at h
  exact if_pos h

theorem singleFrame_of_accepted (hpos : 1 ≤ f.d0.toNat % 16) (hcap : f.d0.toNat % 16 ≤ 7)
    (hdlc : 1 + f.d0.toNat % 16 ≤ f.dlc.val) :
    singleFrame f s = s.setRx (rxComplete .ok (singleFrameAccepted f s.rx)) := by
  rw [← lo_toNat] at hpos hcap hdlc
  exact if_neg (by simp only [Config.sfCapacity]; omega)

end Single

/-- Settles O32: a single frame is malformed, or stores its bytes from index 0 and completes. -/
theorem singleFrameInFirstPhase : Obligations.SingleFrameInFirstPhase := by
  intro s f hinv hid hdlc hp hpci
  have hstep : onInput s (.canRx f) = .next (singleFrame f s) :=
    (onInput_canRx_iFirst hinv hid hp).trans (congrArg _ (inFirstPhase_of_single hdlc hpci))
  obtain ⟨-, -, hwf⟩ := hinv
  refine ⟨fun hbad => hstep.trans (congrArg _ (singleFrame_of_malformed hbad)), fun hpos hcap hroom => ?_⟩
  have hfits : 0 + f.d0.toNat % 16 ≤ Config.rxBufSize := by simp only [Config.rxBufSize]; omega
  refine ⟨_, storedAt_slice hwf f (k := 1) hfits, ?_⟩
  rw [hstep, singleFrame_of_accepted hpos hcap hroom, singleFrameAccepted, lo_setWidth, lo_toNat]
  rfl

/-! ## First frames (R235, R236) -/

section First

variable {s : State} {f : CanFrame}

theorem firstFrame_of_malformed (h : f.dlc.val ≠ 8 ∨ (f.d0.toNat % 16) * 256 + f.d1.toNat < 8) :
    firstFrame f s = s.complete .frameErr := by
  rw [← totalLength_toNat] at h
  unfold firstFrame
  split
  · rfl
  · next hfull => exact if_pos (h.resolve_left hfull)

theorem firstFrame_of_accepted (hdlc : f.dlc.val = 8) (hlen : 8 ≤ (f.d0.toNat % 16) * 256 + f.d1.toNat) :
    firstFrame f s = (s.setRx (firstFrameAccepted f s.rx)).emitCan (flowControl s.can.reqId) := by
  rw [← totalLength_toNat] at hlen
  rw [firstFrame, if_neg (not_not_intro hdlc)]
  exact if_neg (Nat.not_lt.mpr hlen)

end First

/-- Settles O33: a first frame is malformed, or stores its six bytes from index 0 and is answered by `flowControl`. -/
theorem firstFrameSendsFlowControl : Obligations.FirstFrameSendsFlowControl := by
  intro s f hinv hid hdlc hp hpci
  have hstep : onInput s (.canRx f) = .next (firstFrame f s) :=
    (onInput_canRx_iFirst hinv hid hp).trans (congrArg _ (inFirstPhase_of_first hdlc hpci))
  obtain ⟨-, -, hwf⟩ := hinv
  refine ⟨fun hbad => hstep.trans (congrArg _ (firstFrame_of_malformed hbad)), fun hfull hlen => ?_⟩
  have hfits : 0 + Config.ffDataBytes ≤ Config.rxBufSize := by decide
  refine ⟨_, flowControl s.can.reqId, storedAt_slice hwf f (k := 2) hfits, rfl, rfl, rfl, ?_⟩
  rw [hstep, firstFrame_of_accepted hfull hlen, firstFrameAccepted, totalLength_eq]
  rfl

/-! ## Consecutive frames (R239) -/

section Consecutive

variable {s : State} {f : CanFrame}

theorem lo_eq_rxSn_iff : f.lo = s.rx.rxSn ↔ f.d0.toNat % 16 = s.rx.rxSn.toNat := by
  rw [← BitVec.toNat_inj, lo_toNat]

theorem consecutiveFrame_of_badSequence (h : f.d0.toNat % 16 ≠ s.rx.rxSn.toNat) :
    consecutiveFrame f s = s.complete .seqErr := if_pos (mt lo_eq_rxSn_iff.mp h)

theorem consecutiveFrame_of_short (hsn : f.d0.toNat % 16 = s.rx.rxSn.toNat) (h : f.dlc.val < 1 + owedBytes s.rx) :
    consecutiveFrame f s = s.complete .frameErr := by
  rw [consecutiveFrame, if_neg (not_not_intro (lo_eq_rxSn_iff.mpr hsn)), if_pos h]

theorem consecutiveFrame_of_accepted (hsn : f.d0.toNat % 16 = s.rx.rxSn.toNat)
    (h : 1 + owedBytes s.rx ≤ f.dlc.val) :
    consecutiveFrame f s = s.setRx (if (cfAccepted f s.rx).rxIdx = s.rx.rxExp
      then rxComplete .ok (cfAccepted f s.rx) else cfAccepted f s.rx) := by
  rw [consecutiveFrame, if_neg (not_not_intro (lo_eq_rxSn_iff.mpr hsn)), if_neg (Nat.not_lt.mpr h), apply_ite s.setRx]

/-- R239: an accepted consecutive frame writes three fields; the sequence number wraps at 16. -/
theorem cfAccepted_eq (f : CanFrame) (r : RxUnit) :
    cfAccepted f r = { r with
      rxBuf := (cfAccepted f r).rxBuf, rxSn := BitVec.ofNat 4 ((r.rxSn.toNat + 1) % 16),
      rxIdx := BitVec.ofNat 12 (r.rxIdx.toNat + owedBytes r) } := by
  have hsn : r.rxSn + 1#4 = BitVec.ofNat 4 ((r.rxSn.toNat + 1) % 16) := by bv_omega
  have hidx : r.rxIdx + BitVec.ofNat 12 (owedBytes r) = BitVec.ofNat 12 (r.rxIdx.toNat + owedBytes r) := by
    rw [BitVec.ofNat_add, BitVec.ofNat_toNat, BitVec.setWidth_eq]
  rw [← hsn, ← hidx]
  rfl

end Consecutive

/-- Settles O34: a consecutive frame is out of sequence, too short, or `cfAccepted`, which completes at its length. -/
theorem consecutiveFrameInCfPhase : Obligations.ConsecutiveFrameInCfPhase := by
  intro s f hinv hid hdlc hp hpci
  have hstep : onInput s (.canRx f) = .next (consecutiveFrame f s) :=
    (onInput_canRx_iCf hinv hid hp).trans (congrArg _ (inCfPhase_of_consecutive hdlc hpci))
  obtain ⟨hrx, -, hwf⟩ := hinv
  obtain ⟨-, -, hlt⟩ := phaseInv_of_rxInv hrx hp nofun
  refine ⟨fun hbad => hstep.trans (congrArg _ (consecutiveFrame_of_badSequence hbad)),
    fun hsn hshort => hstep.trans (congrArg _ (consecutiveFrame_of_short hsn hshort)), fun hsn hroom => ?_⟩
  exact ⟨_, cfAccepted f s.rx, storedAt_cfAccepted hwf hlt f, cfAccepted_eq f s.rx,
    hstep.trans (congrArg _ (consecutiveFrame_of_accepted hsn hroom))⟩

end Sys2Proof.Machine
end

section
/-! PROOFS. The statements about 44_control.md. Each control command is one update of the state; the reset input is the
update of `SRST` (`onInput_reset`), and that update gives every unit its reset value of R53. -/

namespace Sys2Proof.Machine

/-! ## What the control commands and the reset input do (R270 to R272, R320) -/

theorem exec_nop (s : State) : exec .nop s = .next s := rfl

theorem exec_srst (s : State) : exec .srst s = .next s.resetBlock := rfl

theorem exec_clrErr (s : State) : exec .clrErr s = .next (s.setErr clearedFlags) := rfl

/-- R320: a `Reset` step restores the block; the inputs to come stay. -/
theorem onInput_reset (s : State) : onInput s .reset = .next s.resetBlock := step_pushInput s .reset

/-- R53: a state whose units hold their reset values holds the reset value of every field. -/
theorem resetValues_of_units {t : State} (hck : t.ck = ckReset) (hcrc : t.crc = crcReset) (hcan : t.can = canReset)
    (htx : t.tx = txReset) (hrx : t.rx = rxReset) (hptr : t.rxPtr = 0#12) (herr : t.err = errReset) :
    ResetValues t := by
  rw [ResetValues, hck, hcrc, hcan, htx, hrx, hptr, herr]
  decide

theorem resetValues_resetBlock (s : State) : ResetValues s.resetBlock :=
  resetValues_of_units s.resetBlock_ck s.resetBlock_crc s.resetBlock_can s.resetBlock_tx s.resetBlock_rx
    s.resetBlock_rxPtr s.resetBlock_err

/-! ## The obligations -/

/-- Settles O7: `NOP` answers its own state, and `CLR_ERR` writes `clearedFlags` and no other field. -/
theorem nopAndClrErr : Obligations.NopAndClrErr :=
  ⟨takesNoOperand_of_decodeOp fun _ => rfl, takesNoOperand_of_decodeOp fun _ => rfl,
    fun s => ⟨exec_nop s, exec_clrErr s⟩⟩

/-- Settles O8: both are `State.resetBlock`, which restores every unit and leaves the histories and the inputs. -/
theorem softResetAndResetInputRestoreEveryField : Obligations.SoftResetAndResetInputRestoreEveryField :=
  ⟨takesNoOperand_of_decodeOp fun _ => rfl, fun s => ⟨(onInput_reset s).trans (exec_srst s).symm,
    s.resetBlock, exec_srst s, resetValues_resetBlock s,
    s.resetBlock_serialOut, s.resetBlock_canOut, s.resetBlock_hostReads, s.resetBlock_inputs⟩⟩

end Sys2Proof.Machine
end

section
/-! PROOFS. The statements about 60_exceptions.md. A refused command is `Reject` of one flag (R293). The half-duplex
check stands in `transmit` and `armCommand`, through which all eleven commands go, so R294 is one fact about each; R295
is the length check of `transmit`, and the full buffer of `TX_PUSH`. -/

namespace Sys2Proof.Machine

/-! ## Refusals by the half-duplex check (R294) -/

section HalfDuplex

variable {s : State} (hb : s.rx.rxSt = .busy)
include hb

theorem exec_transmitCommand_of_busy {i : Instr}
    (hi : i ∈ [.txRaw, .txRawB, .txRawD, .txBosch, .txDenso, .txIsotpSf]) : exec i s = .next s.rejectHdx := by
  simp only [List.mem_cons, List.not_mem_nil, or_false] at hi
  obtain rfl | rfl | rfl | rfl | rfl | rfl := hi <;> exact transmit_of_busy _ hb

theorem exec_armingCommand_of_busy {i : Instr} (hi : i ∈ [.rxArmB, .rxArmD, .rxArmI]) :
    exec i s = .next s.rejectHdx := by
  simp only [List.mem_cons, List.not_mem_nil, or_false] at hi
  obtain rfl | rfl | rfl := hi <;> exact armCommand_of_busy hb

/-- The count commands check for a count of 0 first (R299). -/
theorem exec_countCommand_of_busy {i : Instr} {n : Byte} (hn : n ≠ 0#8) (hi : i = .txRawC n ∨ i = .rxCap n) :
    exec i s = .next s.rejectHdx := by
  obtain rfl | rfl := hi
  · exact (exec_txRawC s hn).trans (transmit_of_busy _ hb)
  · exact (exec_rxCap s hn).trans (armCommand_of_busy hb)

end HalfDuplex

/-! ## Refusals by the length check (R295) -/

section Length

variable {s : State} (hidle : s.rx.rxSt ≠ .busy)
include hidle

theorem exec_txBosch_of_empty (hlen : s.tx.txLen = 0#8) : exec .txBosch s = .next s.rejectTxlen :=
  (exec_txBosch s).trans (transmit_of_badLength _ hidle (.inl (Nat.lt_one_iff.mpr (txLen_eq_zero_iff.mp hlen))))

theorem exec_txIsotpSf_of_badLength (hlen : s.tx.txLen = 0#8 ∨ 7#8 < s.tx.txLen) :
    exec .txIsotpSf s = .next s.rejectTxlen := by
  have hbad : s.tx.txLen.toNat < 1 ∨ Config.sfCapacity < s.tx.txLen.toNat :=
    hlen.imp (fun h => Nat.lt_one_iff.mpr (txLen_eq_zero_iff.mp h)) BitVec.lt_def.mp
  exact (exec_txIsotpSf s).trans (transmit_of_badLength _ hidle hbad)

end Length

/-- Settles O22: each refusal is `rejectHdx` or `rejectTxlen`, which writes its one flag. -/
theorem refusedCommandsSetOneFlagOnly : Obligations.RefusedCommandsSetOneFlagOnly := by
  refine ⟨fun s i hb hi => ?_, fun s i hi => ?_⟩
  · obtain hi | ⟨n, hn, hi⟩ := hi
    · have hsplit : i ∈ [.txRaw, .txRawB, .txRawD, .txBosch, .txDenso, .txIsotpSf] ∨ i ∈ [.rxArmB, .rxArmD, .rxArmI] :=
        List.mem_append.mp hi
      obtain hsend | harm := hsplit
      · exact exec_transmitCommand_of_busy hb hsend
      · exact exec_armingCommand_of_busy hb harm
    · exact exec_countCommand_of_busy hb hn hi
  · obtain ⟨⟨b, rfl⟩, hfull⟩ | ⟨rfl, hidle, hempty⟩ | ⟨rfl, hidle, hlen⟩ := hi
    · exact exec_txPush_of_full b hfull
    · exact exec_txBosch_of_empty hidle hempty
    · exact exec_txIsotpSf_of_badLength hidle hlen

end Sys2Proof.Machine
end

section
/-! PROOFS. The statements about 30_encoding.md section 1: the decoder and the encoder are inverse. A word with `Z = 0` is
built from its fields (`commandWord_fields`), and `decodeOp` reaches a command only in the row of that command
(`encode_of_decodeOp`). -/

namespace Sys2Proof

/-! ## The rows of the opcode map (R91, R92) -/

theorem plainCommand_eq_command_iff {imm : Byte} {i j : Instr} :
    plainCommand imm i = .command j ↔ imm = 0#8 ∧ i = j := by
  unfold plainCommand
  split <;> simp [*]

theorem countCommand_eq_command_iff {n : Byte} {i j : Instr} :
    countCommand n i = .command j ↔ countLegal n = true ∧ i = j := by
  unfold countCommand
  split <;> simp [*]

/-- Settles O2: the word of a command decodes by its opcode, and the row of that opcode holds the command. -/
theorem decodeOfEncodeIsTheCommand : Obligations.DecodeOfEncodeIsTheCommand := by
  intro i hwf
  cases i with
  | txRawC n => exact (decode_commandWord 0x25#8 n).trans (countCommand_eq_command_iff.mpr ⟨hwf, rfl⟩)
  | rxCap n => exact (decode_commandWord 0x33#8 n).trans (countCommand_eq_command_iff.mpr ⟨hwf, rfl⟩)
  | ckFeed b | txPush b => exact decode_commandWord _ b
  | nop | srst | clrErr | ckInit | ckFeedTx | ckFeedRx | txClr | txRaw | txRawB | txRawD | txBosch | txDenso
  | txIsotpSf | rxArmB | rxArmD | rxArmI | rxCancel => exact decode_commandWord _ 0#8

/-! ## Legal words (R94, R95) -/

/-- R90: a word whose `Z` is 0 is its opcode and its operand. -/
theorem commandWord_fields {v : Word} (hz : zField v = 0#16) : commandWord (opField v) (immField v) = v := by
  unfold commandWord
  rw [← hz]
  unfold zField opField immField
  rw [BitVec.extractLsb'_append_extractLsb'_eq_extractLsb' (by decide),
    BitVec.extractLsb'_append_extractLsb'_eq_extractLsb' (by decide), BitVec.extractLsb'_eq_self]

/-- R92: the operand is that of the command, and the opcode that of its row. -/
theorem encode_of_decodeOp {op imm : Byte} {i : Instr} (h : decodeOp op imm = .command i) :
    wellFormed i = true ∧ encode i = commandWord op imm := by
  unfold decodeOp at h
  split at h
  case h_22 => cases h
  all_goals
    rename_i hop
    obtain ⟨-, rfl⟩ := BitVec.toNat_eq_nat.mp hop
  case h_5 | h_9 => cases h; exact ⟨rfl, rfl⟩
  case h_13 | h_20 =>
    obtain ⟨hn, rfl⟩ := countCommand_eq_command_iff.mp h
    exact ⟨hn, rfl⟩
  all_goals
    obtain ⟨rfl, rfl⟩ := plainCommand_eq_command_iff.mp h
    exact ⟨rfl, rfl⟩

/-- Settles O3: a legal word has `Z = 0` and is the word of the row it decodes by; the other direction is O2. -/
theorem legalWordsAreExactlyTheEncodings : Obligations.LegalWordsAreExactlyTheEncodings := by
  intro v i
  constructor
  · intro h
    unfold decode at h
    split at h
    · obtain ⟨hwf, henc⟩ := encode_of_decodeOp h
      exact ⟨hwf, henc.trans (commandWord_fields ‹_›)⟩
    · cases h
  · rintro ⟨hwf, rfl⟩
    exact decodeOfEncodeIsTheCommand i hwf

end Sys2Proof
end

section
/-! PROOFS. The statements about every step of the machine: 10_state.md (R23, R24, R30, R35, R36, R54), 42_parser.md (R208)
and 60_exceptions.md (R297). They are read off the account of a step above (`EventEffect`, `CommandEffect`,
`ReceiverStep`); the buffers, whose values those leave open, have their own account (`TxEffect`,
`rxBuf_wf_of_receiverStep`). -/

namespace Sys2Proof.Machine

/-! ## Commands (60_exceptions.md section 3) -/

section Commands

variable {s t : State} {i : Instr}

theorem commandEffect_inputs (h : CommandEffect s i t) : t.inputs = s.inputs ∧ t.hostReads = s.hostReads := by
  cases h <;> exact ⟨rfl, rfl⟩

/-- R35: no command but `SRST` writes `rxPtr`. -/
theorem commandEffect_rxPtr (h : CommandEffect s i t) (hi : i ≠ .srst) : t.rxPtr = s.rxPtr := by
  cases h with
  | reset => exact absurd rfl hi
  | nop | clearFlags | checksum | buffer | zeroCount | refusedBusy | refusedLength | send | arm | sendArm | frameArm
  | cancel | cancelIdle => rfl

end Commands

/-- Settles O46: every command completes (R290), and its effect keeps the three fields. -/
theorem everyCommandCompletes : Obligations.EveryCommandCompletes := by
  intro i s
  obtain ⟨t, ht⟩ := completes_exec s i
  have heffect := commandEffect_of_exec ht
  obtain ⟨hinputs, hreads⟩ := commandEffect_inputs heffect
  refine ⟨t, ht, hinputs, hreads, ?_⟩
  by_cases hi : i = .srst
  · subst hi
    cases ht
    rfl
  · rw [if_neg hi, commandEffect_rxPtr heffect hi]

/-! ## Who writes the fields the host owns (R23, R24, R35, R36) -/

/-- The event is the write of one of the four checksum commands. -/
def IsChecksumCommand (e : Event) : Prop :=
  IsCommand e .ckInit ∨ (∃ b, IsCommand e (.ckFeed b)) ∨ IsCommand e .ckFeedTx ∨ IsCommand e .ckFeedRx

section Writers

variable {s t : State} {e : Event}

theorem commandEffect_hostOwned {i : Instr} (h : CommandEffect s i t) (hi : i ≠ .srst) :
    t.crc = s.crc ∧ t.can = s.can ∧
      (t.ck = s.ck ∨ i = .ckInit ∨ (∃ b, i = .ckFeed b) ∨ i = .ckFeedTx ∨ i = .ckFeedRx) := by
  cases h with
  | reset => exact absurd rfl hi
  | checksum hck => exact ⟨rfl, rfl, .inr hck⟩
  | nop | clearFlags | buffer | zeroCount | refusedBusy | refusedLength | send | arm | sendArm | frameArm | cancel
  | cancelIdle => exact ⟨rfl, rfl, .inl rfl⟩

/-- R23: the accumulators change by a checksum command. -/
theorem eventEffect_ck (h : EventEffect s e t) (hsrst : ¬ IsCommand e .srst) (hreset : e ≠ .reset) (hck : t.ck ≠ s.ck) :
    IsChecksumCommand e := by
  cases h with
  | @command v i _ hd h =>
    have hi : i ≠ .srst := by
      rintro rfl
      exact hsrst ⟨v, rfl, hd⟩
    obtain ⟨-, -, hsame | rfl | ⟨b, rfl⟩ | rfl | rfl⟩ := commandEffect_hostOwned h hi
    · exact absurd hsame hck
    · exact .inl ⟨v, rfl, hd⟩
    · exact .inr (.inl ⟨b, v, rfl, hd⟩)
    · exact .inr (.inr (.inl ⟨v, rfl, hd⟩))
    · exact .inr (.inr (.inr ⟨v, rfl, hd⟩))
  | reset => exact absurd rfl hreset
  | read | illegal | crcCfg | canId | rxPtr | ignored | stray | receive | receiveSend => exact absurd rfl hck

/-- R24, R35, R36: each of the other fields changes by a host write to its own register. -/
theorem eventEffect_registers (h : EventEffect s e t) (hsrst : ¬ IsCommand e .srst) (hreset : e ≠ .reset) :
    (t.crc = s.crc ∨ ∃ v, e = .hostWrite 0x0C#8 32 v) ∧ (t.can = s.can ∨ ∃ v, e = .hostWrite 0x10#8 32 v) ∧
      (t.rxPtr = s.rxPtr ∨ ∃ v, e = .hostWrite 0x20#8 32 v) := by
  cases h with
  | @command v i _ hd h =>
    have hi : i ≠ .srst := by
      rintro rfl
      exact hsrst ⟨v, rfl, hd⟩
    obtain ⟨hcrc, hcan, -⟩ := commandEffect_hostOwned h hi
    exact ⟨.inl hcrc, .inl hcan, .inl (commandEffect_rxPtr h hi)⟩
  | crcCfg v => exact ⟨.inr ⟨v, rfl⟩, .inl rfl, .inl rfl⟩
  | canId v => exact ⟨.inl rfl, .inr ⟨v, rfl⟩, .inl rfl⟩
  | rxPtr v => exact ⟨.inl rfl, .inl rfl, .inr ⟨v, rfl⟩⟩
  | reset => exact absurd rfl hreset
  | read | illegal | ignored | stray | receive | receiveSend => exact ⟨.inl rfl, .inl rfl, .inl rfl⟩

end Writers

/-- Settles O53: the only effects on each field are those of its own writers. -/
theorem whoMayWriteTheHostOwnedFields : Obligations.WhoMayWriteTheHostOwnedFields := by
  intro s t e h hsrst hreset
  have heffect := eventEffect_of_takeEvent h
  obtain ⟨hcrc, hcan, hptr⟩ := eventEffect_registers heffect hsrst hreset
  exact ⟨eventEffect_ck heffect hsrst hreset, hcrc.resolve_left, hcan.resolve_left, hptr.resolve_left⟩

/-! ## What ends and what starts a receive (R208, R331) -/

section Receives

variable {s t : State} {i : Instr} {e : Event}

/-- The commands that may arm: the transmit commands but `TX_RAW`, and the arming commands. -/
theorem mem_of_starts {fam : RxFam} {ph : RxPhase} {n : BitVec 12} (h : Starts i fam ph n) :
    i ∈ [.txRawB, .txRawD, .txBosch, .txDenso, .txIsotpSf, .rxArmB, .rxArmD, .rxArmI] ∨
      ∃ n : Byte, i = .txRawC n ∨ i = .rxCap n := by
  cases h with
  | @txRawC n _ => exact .inr ⟨n, .inl rfl⟩
  | @rxCap n _ => exact .inr ⟨n, .inr rfl⟩
  | txRawB | txRawD | txBosch | txDenso | txIsotpSf | rxArmB | rxArmD | rxArmI => exact .inl (by simp)

/-- Only `RX_CANCEL` and `SRST` among the commands change a `BUSY` receiver. -/
theorem commandEffect_rx_of_busy (h : CommandEffect s i t) (hb : s.rx.rxSt = .busy) :
    t.rx = s.rx ∨ i = .rxCancel ∨ i = .srst := by
  cases h with
  | reset => exact .inr (.inr rfl)
  | cancel => exact .inr (.inl rfl)
  | arm _ hidle | sendArm _ hidle | frameArm _ hidle => exact absurd hb hidle
  | nop | clearFlags | checksum | buffer | zeroCount | refusedBusy | refusedLength | send | cancelIdle => exact .inl rfl

/-- Only a command that arms and `SRST` among the commands change a receiver that is not `BUSY`. -/
theorem commandEffect_rx_of_idle (h : CommandEffect s i t) (hidle : Idle s) :
    t.rx = s.rx ∨ (∃ fam ph n, Starts i fam ph n) ∨ i = .srst := by
  cases h with
  | reset => exact .inr (.inr rfl)
  | cancel hb => exact absurd hb hidle
  | arm hs | sendArm hs | frameArm hs => exact .inr (.inl ⟨_, _, _, hs⟩)
  | nop | clearFlags | checksum | buffer | zeroCount | refusedBusy | refusedLength | send | cancelIdle => exact .inl rfl

/-- R331: what can end a receive. -/
theorem takeEvent_ends (h : takeEvent e s = .next t) (hb : s.rx.rxSt = .busy) (hend : t.rx.rxSt ≠ .busy) :
    (∃ b, e = .serialRx b) ∨ (∃ f, e = .canRx f ∧ f.id = s.can.respId) ∨ e = .timer ∨
      IsCommand e .rxCancel ∨ IsCommand e .srst ∨ e = .reset := by
  have hchanged : t.rx ≠ s.rx := fun hsame => hend (hsame ▸ hb)
  cases eventEffect_of_takeEvent h with
  | @command v _ _ hd hc =>
    obtain hsame | rfl | rfl := commandEffect_rx_of_busy hc hb
    · exact absurd hsame hchanged
    · exact .inr (.inr (.inr (.inl ⟨v, rfl, hd⟩)))
    · exact .inr (.inr (.inr (.inr (.inl ⟨v, rfl, hd⟩))))
  | @receive e r _ hr | @receiveSend e r _ hr =>
    cases e with
    | serialRx b => exact .inl ⟨b, rfl⟩
    | canRx f =>
      refine .inr (.inl ⟨f, rfl, ?_⟩)
      by_contra hid
      exact hchanged (congrArg State.rx (Host.Outcome.next.inj (h.symm.trans (canInput_of_otherId hid))))
    | timer => exact .inr (.inr (.inl rfl))
    | hostRead | hostWrite | reset => cases hr
  | reset => exact .inr (.inr (.inr (.inr (.inr rfl))))
  | read | illegal | crcCfg | canId | rxPtr | ignored | stray => exact absurd rfl hchanged

/-- R208: what can change a receiver that is not `BUSY`. -/
theorem eventEffect_starts (h : EventEffect s e t) (hidle : Idle s) (hchanged : t.rx ≠ s.rx) :
    (∃ i, IsCommand e i ∧ ∃ fam ph n, Starts i fam ph n) ∨ IsCommand e .srst ∨ e = .reset := by
  cases h with
  | @command v i _ hd hc =>
    obtain hsame | hs | rfl := commandEffect_rx_of_idle hc hidle
    · exact absurd hsame hchanged
    · exact .inl ⟨i, ⟨v, rfl, hd⟩, hs⟩
    · exact .inr (.inl ⟨v, rfl, hd⟩)
  | receive hb | receiveSend hb => exact absurd hb hidle
  | reset => exact .inr (.inr rfl)
  | read | illegal | crcCfg | canId | rxPtr | ignored | stray => exact absurd rfl hchanged

end Receives

/-- Settles O54: by the two lemmas above. -/
theorem whatEndsAndWhatStartsAReceive : Obligations.WhatEndsAndWhatStartsAReceive := by
  refine fun s t e h => ⟨takeEvent_ends h, fun hidle hchanged => ?_⟩
  refine (eventEffect_starts (eventEffect_of_takeEvent h) hidle hchanged).imp_left ?_
  rintro ⟨i, hi, fam, ph, n, hs⟩
  exact ⟨i, hi, mem_of_starts hs⟩

/-! ## The buffers (R54, R65) -/

/-- What a step can do to the transmit unit (R22, R151, R152). -/
inductive TxEffect (x : TxUnit) : TxUnit → Prop
  | kept : TxEffect x x
  | cleared : TxEffect x { x with txLen := 0#8 }
  | appended (b : Byte) (hroom : x.txLen ≠ 255#8) : TxEffect x (txAppend b x)
  | reset : TxEffect x txReset

section Transmitter

variable {s t : State}

theorem txEffect_of_txPush {b : Byte} (h : exec (.txPush b) s = .next t) : TxEffect s.tx t.tx := by
  by_cases hfull : s.tx.txLen = 255#8
  · cases (exec_txPush_of_full b hfull).symm.trans h
    exact .kept
  · cases (exec_txPush_of_room b hfull).symm.trans h
    exact .appended b hfull

theorem txEffect_of_exec {i : Instr} (h : exec i s = .next t) : TxEffect s.tx t.tx := by
  cases commandEffect_of_exec h with
  | buffer hi =>
    obtain rfl | ⟨b, rfl⟩ := hi
    · cases h
      exact .cleared
    · exact txEffect_of_txPush h
  | reset => exact .reset
  | nop | clearFlags | checksum | zeroCount | refusedBusy | refusedLength | send | arm | sendArm | frameArm | cancel
  | cancelIdle => exact .kept

theorem txEffect_of_takeEvent {e : Event} (h : takeEvent e s = .next t) : TxEffect s.tx t.tx := by
  cases eventEffect_of_takeEvent h with
  | command hd => exact txEffect_of_exec ((runWord_of_command hd s).symm.trans h)
  | reset => exact .reset
  | read | illegal | crcCfg | canId | rxPtr | ignored | stray | receive | receiveSend => exact .kept

theorem TxEffect.wf {x y : TxUnit} (h : TxEffect x y) (hwf : Memory.wf Config.txBufSize x.txBuf = true) :
    Memory.wf Config.txBufSize y.txBuf = true := by
  cases h with
  | kept | cleared => exact hwf
  | appended b hroom =>
    refine write_wf hwf ?_ b
    change x.txLen.toNat < 255
    bv_omega
  | reset => rfl

end Transmitter

section Receiver

variable {r r' : RxUnit} (hwf : Memory.wf Config.rxBufSize r.rxBuf = true)
include hwf

theorem rxStored_wf (hlt : r.rxIdx < r.rxExp) (b : Byte) :
    Memory.wf Config.rxBufSize (rxStored b r).rxBuf = true := by
  refine write_wf hwf ?_ b
  change r.rxIdx.toNat < 4095
  bv_omega

/-- The bytes of a frame that end inside `RXBUF`. -/
theorem rxStoreAll_wf (f : CanFrame) {a k n : Nat} (h : a + n ≤ Config.rxBufSize) :
    Memory.wf Config.rxBufSize (rxStoreAll a (f.slice k n) r).rxBuf = true :=
  writeList_wf _ hwf ((Nat.add_le_add_left (slice_length_le f k n) a).trans h)

theorem cfAccepted_wf (hlt : r.rxIdx < r.rxExp) (f : CanFrame) :
    Memory.wf Config.rxBufSize (cfAccepted f r).rxBuf = true := by
  refine rxStoreAll_wf hwf f ?_
  simp only [owedBytes, Config.cfDataBytes, Config.rxBufSize]
  bv_omega

/-- R65: what the outside world makes an armed receiver store stays inside `RXBUF`. -/
theorem rxBuf_wf_of_receiverStep (hinv : RxInv r) {e : Event} (h : ReceiverStep r e r') :
    Memory.wf Config.rxBufSize r'.rxBuf = true := by
  cases h with
  | boschBody hp | densoBody hp =>
    obtain ⟨-, -, hlt⟩ := phaseInv_of_rxInv hinv hp nofun
    exact rxStored_wf hwf hlt _
  | capture hp =>
    obtain ⟨-, -, hlt⟩ := phaseInv_of_rxInv hinv hp nofun
    unfold captureByte
    split <;> exact rxStored_wf hwf hlt _
  | @singleFrame f _ => exact rxStoreAll_wf hwf f (by have := f.lo.isLt; simp only [Config.rxBufSize]; omega)
  | @firstFrame f _ _ => exact rxStoreAll_wf hwf f (by decide)
  | @lastConsecutive f hp _ | @consecutive f hp _ =>
    obtain ⟨-, -, hlt⟩ := phaseInv_of_rxInv hinv hp nofun
    exact cfAccepted_wf hwf hlt f
  | boschLen | densoHunt | densoEtx =>
    simp only [boschLen, densoHunt, densoEtx]
    split_ifs <;> exact hwf
  | boschCheck | densoLen | densoCheck | badFrame | badSequence | timeout => exact hwf

end Receiver

section Invariant

variable {s t : State}

theorem commandEffect_rxBuf {i : Instr} (h : CommandEffect s i t) : t.rx.rxBuf = s.rx.rxBuf ∨ t.rx = rxReset := by
  cases h with
  | reset => exact .inr rfl
  | nop | clearFlags | checksum | buffer | zeroCount | refusedBusy | refusedLength | send | arm | sendArm | frameArm
  | cancel | cancelIdle => exact .inl rfl

theorem eventEffect_rxBuf_wf {e : Event} (h : EventEffect s e t) (hinv : RxInv s.rx)
    (hwf : Memory.wf Config.rxBufSize s.rx.rxBuf = true) : Memory.wf Config.rxBufSize t.rx.rxBuf = true := by
  cases h with
  | command _ h =>
    obtain hsame | hreset := commandEffect_rxBuf h
    · rwa [hsame]
    · rw [hreset]
      rfl
  | receive _ h | receiveSend _ h => exact rxBuf_wf_of_receiverStep hwf hinv h
  | reset => rfl
  | read | illegal | crcCfg | canId | rxPtr | ignored | stray => exact hwf

end Invariant

/-- Settles O48: the receiver's invariant is kept by every effect, and what is stored in a buffer is inside it. -/
theorem everyStepKeepsTheInvariant : Obligations.EveryStepKeepsTheInvariant := by
  intro s t ⟨hrx, htx, hwf⟩ h
  obtain ⟨-, rfl⟩ | ⟨e, rest, -, he⟩ := step_cases h
  · exact ⟨hrx, htx, hwf⟩
  · exact ⟨step_keeps_rxInv hrx h, (txEffect_of_takeEvent he).wf htx,
      eventEffect_rxBuf_wf (eventEffect_of_takeEvent he) hrx hwf⟩

/-- Settles O47: the receiver's invariant holds at reset, and both buffers list nothing. -/
theorem resetSatisfiesTheInvariant : Obligations.ResetSatisfiesTheInvariant := ⟨rxInv_reset, rfl, rfl⟩

/-! ## What can stop a step (R66, R297) -/

section Stops

variable {s : State}

/-- R188: under the invariant every serial phase has a rule. -/
theorem exists_serialStep {r : RxUnit} (hinv : RxInv r) (hb : r.rxSt = .busy) (hfam : r.rxFam ≠ .isotp) (b : Byte) :
    ∃ r', ReceiverStep r (.serialRx b) r' := by
  obtain ⟨-, hphase, -⟩ := (rxInv_busy_iff hb rfl).mp hinv
  cases hp : r.rxPhase with
  | bLen => exact ⟨_, .boschLen hp⟩
  | bBody => exact ⟨_, .boschBody hp⟩
  | bChk => exact ⟨_, .boschCheck hp⟩
  | dHunt => exact ⟨_, .densoHunt hp⟩
  | dLen => exact ⟨_, .densoLen hp⟩
  | dBody => exact ⟨_, .densoBody hp⟩
  | dChk => exact ⟨_, .densoCheck hp⟩
  | dEtx => exact ⟨_, .densoEtx hp⟩
  | rCap => exact ⟨_, .capture hp⟩
  | none =>
    rw [hp] at hphase
    exact hphase.elim
  | iFirst | iCf =>
    rw [hp] at hphase
    exact absurd hphase.1 hfam

theorem completes_serialInput (hinv : RxInv s.rx) (b : Byte) : Completes (serialInput b s) := by
  by_cases hstray : s.rx.rxSt ≠ .busy ∨ s.rx.rxFam = .isotp
  · exact ⟨_, serialInput_of_stray hstray b⟩
  · rw [not_or, not_ne_iff] at hstray
    obtain ⟨r', hstep⟩ := exists_serialStep hinv hstray.1 hstray.2 b
    exact ⟨_, serialInput_of_serialStep hinv hstep⟩

/-- R232: under the invariant a receiver armed for ISO-TP is in a phase that takes frames. -/
theorem completes_canByPhase (hinv : RxInv s.rx) (hb : s.rx.rxSt = .busy) (hfam : s.rx.rxFam = .isotp) (f : CanFrame) :
    Completes (canByPhase f s) := by
  obtain ⟨-, hphase, -⟩ := (rxInv_busy_iff hb rfl).mp hinv
  unfold canByPhase
  split
  case h_1 | h_2 => exact completes_next _
  all_goals
    rename_i hp
    rw [hp, PhaseInv] at hphase
    simp [hfam] at hphase

theorem completes_canInput (hinv : RxInv s.rx) (f : CanFrame) : Completes (canInput f s) := by
  by_cases hid : f.id = s.can.respId
  case neg => exact ⟨_, canInput_of_otherId hid⟩
  rw [canInput_of_respId hid]
  by_cases hb : s.rx.rxSt = .busy
  case neg => exact ⟨_, canAccepted_of_idle hb f⟩
  have hne := family_ne_none hb hinv
  cases hfam : s.rx.rxFam with
  | none => exact absurd hfam hne
  | isotp =>
    rw [canAccepted, if_neg (not_not_intro hb), hfam]
    exact completes_canByPhase hinv hb hfam f
  | bosch | denso | raw => exact ⟨_, canAccepted_of_serialFamily (by simp [hfam]) f⟩

theorem completes_timeoutInput : Completes (timeoutInput s) := by
  unfold timeoutInput
  split <;> exact completes_next _

/-- R66, R297: an input answers a next state, or it is a host access that reaches no register. -/
theorem takeEvent_completes_or_busError (hinv : RxInv s.rx) (e : Event) :
    Completes (takeEvent e s) ∨
      takeEvent e s = .fault .busError ∧ ∃ off bits, accessedReg off bits = none ∧
        (e = .hostRead off bits ∨ ∃ v, e = .hostWrite off bits v) := by
  cases e with
  | hostRead off bits =>
    cases hr : accessedReg off bits with
    | none => exact .inr ⟨hostRead_eq_busError_iff.mpr hr, off, bits, hr, .inl rfl⟩
    | some r => exact .inl ⟨s.emitRead (regRead r s), by rw [takeEvent, hostRead, hr]⟩
  | hostWrite off bits v =>
    cases hr : accessedReg off bits with
    | none => exact .inr ⟨hostWrite_eq_busError_iff.mpr hr, off, bits, hr, .inr ⟨v, rfl⟩⟩
    | some r =>
      obtain ⟨t, ht⟩ := completes_regWrite s r v
      exact .inl ⟨t, by rw [takeEvent, hostWrite, hr, ← ht]⟩
  | serialRx b => exact .inl (completes_serialInput hinv b)
  | canRx f => exact .inl (completes_canInput hinv f)
  | timer => exact .inl completes_timeoutInput
  | reset => exact .inl (completes_next _)

/-- R5, R66: a step answers a next state, or its input is a host access that reaches no register. -/
theorem step_completes_or_busError (hinv : RxInv s.rx) :
    Completes (step s) ∨
      step s = .fault .busError ∧ ∃ off bits rest, accessedReg off bits = none ∧
        (s.inputs = .hostRead off bits :: rest ∨ ∃ v, s.inputs = .hostWrite off bits v :: rest) := by
  unfold step takeInput
  cases s.inputs with
  | nil => exact .inl (completes_next s)
  | cons e rest =>
    refine (takeEvent_completes_or_busError (s := s.setInputs rest) hinv e).imp_right ?_
    rintro ⟨hfault, off, bits, hreg, rfl | ⟨v, rfl⟩⟩
    · exact ⟨hfault, off, bits, rest, hreg, .inl rfl⟩
    · exact ⟨hfault, off, bits, rest, hreg, .inr ⟨v, rfl⟩⟩

end Stops

/-- Settles O50: every step completes or is a `BusError` on an access that reaches no register. -/
theorem onlyABadHostAccessStopsAStep : Obligations.OnlyABadHostAccessStopsAStep := by
  intro s ⟨hrx, _, _⟩
  obtain ⟨t, ht⟩ | ⟨hfault, off, bits, rest, hreg, hin⟩ := step_completes_or_busError hrx
  · rw [ht]
    exact ⟨nofun, nofun⟩
  · rw [hfault]
    refine ⟨nofun, fun f hf => ?_⟩
    cases hf
    exact ⟨rfl, off, bits, rest, hin, accessedReg_eq_none_iff.mp hreg⟩

/-! ## What is readable (R30) -/

section Readable

variable {s : State}

theorem committedByte_of_zero (h : s.rx.rxCommit = 0#12) (i : BitVec 12) : committedByte s i = 0#8 := by
  rw [committedByte, h, if_neg (BitVec.not_lt_zero)]

theorem rxCommit_eq_zero (hinv : RxInv s.rx) (hne : s.rx.rxSt ≠ .ok) : s.rx.rxCommit = 0#12 := by
  obtain ⟨-, hcommit, -⟩ := hinv
  by_contra hc
  exact hne (hcommit hc)

theorem rxPayload_of_zero (h : s.rx.rxCommit = 0#12) : s.rxPayload = [] := by simp [State.rxPayload, h]

/-- R34, R191, R196: the checksum bytes of a completed Bosch or Denso receive agree. -/
theorem chkRx_eq_chkCalc (hinv : RxInv s.rx) (hok : s.rx.rxSt = .ok) (hfam : s.rx.rxFam ∈ [.bosch, .denso]) :
    s.rx.chkRx = s.rx.chkCalc := by
  obtain ⟨-, -, -, -, -, -, -, -, -, -, -, -, hseen, hunseen, -, hmatch⟩ := hinv
  have hm := hmatch hok hfam
  cases hs : s.rx.chkSeen with
  | true => exact of_decide_eq_true ((hseen hs).symm.trans hm)
  | false =>
    obtain ⟨-, hrx, hcalc⟩ := hunseen hs
    rw [hrx, hcalc]

end Readable

/-- Settles O55: without `OK` nothing is committed; with it the payload is the whole receive. -/
theorem onlyValidatedPayloadIsReadable : Obligations.OnlyValidatedPayloadIsReadable := by
  intro s ⟨hrx, _, _⟩
  refine ⟨fun hne => ?_, fun hpayload => ?_⟩
  · have hzero := rxCommit_eq_zero hrx hne
    refine ⟨?_, ?_, rxPayload_of_zero hzero⟩
    · rw [regRead, rxLenWord, hzero]
      rfl
    · rw [regRead, rxDataWord, committedByte_of_zero hzero]
      rfl
  · have hok : s.rx.rxSt = .ok := by
      by_contra hne
      exact hpayload (rxPayload_of_zero (rxCommit_eq_zero hrx hne))
    refine ⟨hok, ?_, chkRx_eq_chkCalc hrx hok⟩
    obtain ⟨-, -, hfull, -⟩ := hrx
    rw [State.rxPayload, firstBytes_length, (hfull hok).1]

end Sys2Proof.Machine
end

section
/-! PROOFS. The statement about the buffer bytes nothing has stored (10_state.md R25, R26; entry 5). Two states that agree
on everything else differ by their two buffers only (`sameVisible_iff`). Every update of the machine keeps such a pair
alike, because it reads a buffer below `txLen` or `rxIdx` only; so every input does (`alike_takeEvent`). -/

namespace Sys2Proof.Machine

/-! ## Buffers that agree below an index (R65) -/

/-- The bytes below index `n` are the same in both buffers. -/
def AgreeBelow (n : Nat) (m m' : Memory) : Prop := ∀ i, i < n → Memory.read m i = Memory.read m' i

section Buffers

variable {size : Nat} {m m' : Memory} (hm : Memory.wf size m = true) (hm' : Memory.wf size m' = true)

theorem agreeBelow_zero (m m' : Memory) : AgreeBelow 0 m m' := fun _ h => absurd h (Nat.not_lt_zero _)

theorem AgreeBelow.mono {n k : Nat} (h : AgreeBelow n m m') (hk : k ≤ n) : AgreeBelow k m m' :=
  fun i hi => h i (hi.trans_le hk)

include hm hm'

/-- A byte stored right behind the agreement extends it. -/
theorem AgreeBelow.write {n : Nat} (h : AgreeBelow n m m') (b : Byte) :
    AgreeBelow (n + 1) (Memory.write m n b) (Memory.write m' n b) := by
  intro i hi
  rw [read_write hm, read_write hm']
  split
  · rfl
  · exact h i (by omega)

/-- Bytes stored right behind the agreement extend it. -/
theorem AgreeBelow.writeList {n : Nat} (h : AgreeBelow n m m') {bs : List Byte} (hfits : n + bs.length ≤ size) :
    AgreeBelow (n + bs.length) (Memory.writeList m n bs) (Memory.writeList m' n bs) := by
  intro i hi
  rw [read_writeList bs hm hfits i, read_writeList bs hm' hfits i]
  split
  · rfl
  · exact h i (by omega)

end Buffers

/-! ## Units and states that differ in unread bytes only -/

/-- `y` is `x` with another buffer that agrees below `txLen` (R25). -/
def SameTx (x y : TxUnit) : Prop := ∃ m, y = { x with txBuf := m } ∧ AgreeBelow x.txLen.toNat x.txBuf m

/-- `q` is `r` with another buffer that agrees below `rxIdx` (R26). -/
def SameRx (r q : RxUnit) : Prop := ∃ m, q = { r with rxBuf := m } ∧ AgreeBelow r.rxIdx.toNat r.rxBuf m

theorem sameVisible_iff {s t : State} :
    SameVisible s t ↔ ∃ x r, t = (s.setTx x).setRx r ∧ SameTx s.tx x ∧ SameRx s.rx r := by
  constructor
  · rintro ⟨heq, htx, hrx⟩
    have ht := congrArg (fun u : State => (u.setTx t.tx).setRx t.rx) heq
    have hx : { s.tx with txBuf := t.tx.txBuf } = t.tx :=
      congrArg (fun u : State => { u.tx with txBuf := t.tx.txBuf }) heq
    have hr : { s.rx with rxBuf := t.rx.rxBuf } = t.rx :=
      congrArg (fun u : State => { u.rx with rxBuf := t.rx.rxBuf }) heq
    exact ⟨t.tx, t.rx, ht.symm, ⟨_, hx.symm, htx⟩, ⟨_, hr.symm, hrx⟩⟩
  · rintro ⟨_, _, rfl, ⟨m, rfl, htx⟩, ⟨m', rfl, hrx⟩⟩
    exact ⟨rfl, htx, hrx⟩

/-! ## The receiver's updates -/

section Receiver

variable {r q : RxUnit} (h : SameRx r q)
include h

/-- An update that neither stores nor counts, and reads no stored byte. -/
theorem SameRx.keeping {g : RxUnit → RxUnit} (hbuf : ∀ r m, g { r with rxBuf := m } = { g r with rxBuf := m })
    (hkept : ∀ r, (g r).rxBuf = r.rxBuf) (hidx : ∀ r, (g r).rxIdx = r.rxIdx) : SameRx (g r) (g q) := by
  obtain ⟨m, rfl, hm⟩ := h
  refine ⟨m, hbuf r m, ?_⟩
  rwa [hkept, hidx]

theorem SameRx.arm (fam : RxFam) (ph : RxPhase) (n : BitVec 12) : SameRx (rxArm fam ph n r) (rxArm fam ph n q) := by
  obtain ⟨m, rfl, -⟩ := h
  exact ⟨m, rfl, agreeBelow_zero _ _⟩

theorem SameRx.complete (code : RxSt) : SameRx (rxComplete code r) (rxComplete code q) :=
  h.keeping (fun _ _ => rfl) (fun _ => rfl) (fun _ => rfl)

theorem SameRx.boschLen (b : Byte) : SameRx (boschLen b r) (boschLen b q) := by
  unfold Machine.boschLen
  split
  · exact h.complete _
  · obtain ⟨m, rfl, hm⟩ := h
    exact ⟨m, rfl, hm⟩

theorem SameRx.boschCheck (b : Byte) : SameRx (boschCheck b r) (boschCheck b q) :=
  h.keeping (g := Machine.boschCheck b) (fun _ _ => rfl) (fun _ => rfl) (fun _ => rfl)

theorem SameRx.densoHunt (b : Byte) : SameRx (densoHunt b r) (densoHunt b q) := by
  unfold Machine.densoHunt
  split
  · obtain ⟨m, rfl, hm⟩ := h
    exact ⟨m, rfl, hm⟩
  · exact h

theorem SameRx.densoLen (b : Byte) : SameRx (densoLen b r) (densoLen b q) :=
  h.keeping (g := Machine.densoLen b) (fun _ _ => rfl) (fun _ => rfl) (fun _ => rfl)

theorem SameRx.densoCheck (b : Byte) : SameRx (densoCheck b r) (densoCheck b q) :=
  h.keeping (g := Machine.densoCheck b) (fun _ _ => rfl) (fun _ => rfl) (fun _ => rfl)

theorem SameRx.densoEtx (b : Byte) : SameRx (densoEtx b r) (densoEtx b q) := by
  have hmatch : q.chkMatch = r.chkMatch := by obtain ⟨m, rfl, -⟩ := h; rfl
  rw [densoEtx_eq, densoEtx_eq, hmatch]
  exact h.complete _

section Stores

variable (hr : Memory.wf Config.rxBufSize r.rxBuf = true) (hq : Memory.wf Config.rxBufSize q.rxBuf = true)
include hr hq

/-- What `rxStored` stores and counts (R190, R194, R197). -/
theorem SameRx.stored_agree (b : Byte) :
    ∃ m, q = { r with rxBuf := m } ∧
      AgreeBelow (r.rxIdx + 1#12).toNat (Memory.write r.rxBuf r.rxIdx.toNat b) (Memory.write m r.rxIdx.toNat b) := by
  obtain ⟨m, rfl, hm⟩ := h
  exact ⟨m, rfl, (hm.write hr hq b).mono (by bv_omega)⟩

theorem SameRx.stored (b : Byte) : SameRx (rxStored b r) (rxStored b q) := by
  obtain ⟨m, rfl, hm⟩ := h.stored_agree hr hq b
  exact ⟨_, rfl, hm⟩

theorem SameRx.bodyByte (after : RxPhase) (b : Byte) : SameRx (bodyByte after b r) (bodyByte after b q) := by
  obtain ⟨m, rfl, hm⟩ := h.stored_agree hr hq b
  exact ⟨_, rfl, hm⟩

theorem SameRx.captureByte (b : Byte) : SameRx (captureByte b r) (captureByte b q) := by
  have hstored := h.stored hr hq b
  obtain ⟨m, rfl, -⟩ := h
  by_cases hlast : r.rxIdx + 1#12 = r.rxExp
  · rw [captureByte_of_last hlast, captureByte_of_last (r := { r with rxBuf := m }) hlast]
    exact hstored.complete _
  · rw [captureByte_of_more hlast, captureByte_of_more (r := { r with rxBuf := m }) hlast]
    exact hstored

/-- The `n` data bytes of a frame stored right behind the agreement extend it, where they end inside `RXBUF`. -/
theorem SameRx.slice_agree (f : CanFrame) {a k n : Nat} (ha : a ≤ r.rxIdx.toNat) (hk : k + n ≤ 8)
    (hfits : a + n ≤ Config.rxBufSize) :
    ∃ m, q = { r with rxBuf := m } ∧
      AgreeBelow (a + n) (Memory.writeList r.rxBuf a (f.slice k n)) (Memory.writeList m a (f.slice k n)) := by
  have hlen : (f.slice k n).length = n := by
    simp only [CanFrame.slice, CanFrame.bytes, List.length_take, List.length_drop, List.length_cons, List.length_nil]
    omega
  obtain ⟨m, rfl, hm⟩ := h
  have hagree := (hm.mono ha).writeList hr hq (bs := f.slice k n) (by rwa [hlen])
  rw [hlen] at hagree
  exact ⟨m, rfl, hagree⟩

theorem SameRx.singleFrameAccepted {f : CanFrame} (hcap : f.lo.toNat ≤ Config.sfCapacity) :
    SameRx (singleFrameAccepted f r) (singleFrameAccepted f q) := by
  have hcap7 : f.lo.toNat ≤ 7 := hcap
  obtain ⟨m, rfl, hm⟩ := h.slice_agree hr hq f (Nat.zero_le _) (k := 1) (n := f.lo.toNat)
    (by omega) (by simp only [Config.rxBufSize]; omega)
  refine ⟨_, rfl, hm.mono ?_⟩
  simp only [Machine.singleFrameAccepted, BitVec.toNat_setWidth]
  omega

theorem SameRx.firstFrameAccepted (f : CanFrame) : SameRx (firstFrameAccepted f r) (firstFrameAccepted f q) := by
  obtain ⟨m, rfl, hm⟩ := h.slice_agree hr hq f (Nat.zero_le _) (k := 2) (n := Config.ffDataBytes) (by decide) (by decide)
  exact ⟨_, rfl, hm⟩

theorem SameRx.cfAccepted (f : CanFrame) : SameRx (cfAccepted f r) (cfAccepted f q) := by
  have howed : owedBytes r ≤ 7 := Nat.min_le_left _ _
  have hfits : r.rxIdx.toNat + owedBytes r ≤ Config.rxBufSize := by
    simp only [owedBytes, Config.rxBufSize]
    omega
  obtain ⟨m, rfl, hm⟩ := h.slice_agree hr hq f le_rfl (k := 1) (by omega) hfits
  refine ⟨_, rfl, hm.mono ?_⟩
  simp only [cfAccepted_rxIdx]
  bv_omega

end Stores

end Receiver

/-! ## Updates of the state -/

section Updates

variable {s t : State}

theorem SameVisible.setTx {x y : TxUnit} (h : SameVisible s t) (hxy : SameTx x y) :
    SameVisible (s.setTx x) (t.setTx y) := by
  obtain ⟨_, r, rfl, -, hr⟩ := sameVisible_iff.mp h
  exact sameVisible_iff.mpr ⟨y, r, rfl, hxy, hr⟩

theorem SameVisible.setRx {r q : RxUnit} (h : SameVisible s t) (hrq : SameRx r q) :
    SameVisible (s.setRx r) (t.setRx q) := by
  obtain ⟨x, _, rfl, hx, -⟩ := sameVisible_iff.mp h
  exact sameVisible_iff.mpr ⟨x, q, rfl, hx, hrq⟩

theorem SameVisible.rx (h : SameVisible s t) : SameRx s.rx t.rx := by
  obtain ⟨_, _, rfl, -, hr⟩ := sameVisible_iff.mp h
  exact hr

section Fields

variable (h : SameVisible s t)
include h

theorem SameVisible.ck_eq : t.ck = s.ck := by obtain ⟨_, _, rfl, -⟩ := sameVisible_iff.mp h; rfl
theorem SameVisible.crc_eq : t.crc = s.crc := by obtain ⟨_, _, rfl, -⟩ := sameVisible_iff.mp h; rfl
theorem SameVisible.can_eq : t.can = s.can := by obtain ⟨_, _, rfl, -⟩ := sameVisible_iff.mp h; rfl
theorem SameVisible.rxPtr_eq : t.rxPtr = s.rxPtr := by obtain ⟨_, _, rfl, -⟩ := sameVisible_iff.mp h; rfl
theorem SameVisible.inputs_eq : t.inputs = s.inputs := by obtain ⟨_, _, rfl, -⟩ := sameVisible_iff.mp h; rfl
theorem SameVisible.txLen_eq : t.tx.txLen = s.tx.txLen := by
  obtain ⟨_, _, rfl, ⟨_, rfl, -⟩, -⟩ := sameVisible_iff.mp h; rfl
theorem SameVisible.rxSt_eq : t.rx.rxSt = s.rx.rxSt := by obtain ⟨_, hr, -⟩ := h.rx; rw [hr]
theorem SameVisible.rxFam_eq : t.rx.rxFam = s.rx.rxFam := by obtain ⟨_, hr, -⟩ := h.rx; rw [hr]
theorem SameVisible.rxPhase_eq : t.rx.rxPhase = s.rx.rxPhase := by obtain ⟨_, hr, -⟩ := h.rx; rw [hr]
theorem SameVisible.rxIdx_eq : t.rx.rxIdx = s.rx.rxIdx := by obtain ⟨_, hr, -⟩ := h.rx; rw [hr]

theorem SameVisible.notStarted_eq : notStarted t.rx = notStarted s.rx := by
  obtain ⟨_, hr, -⟩ := h.rx
  rw [hr]
  rfl

end Fields

/-- An update that touches neither unit. -/
theorem SameVisible.keeping {g : State → State} (h : SameVisible s t)
    (hunits : ∀ (s : State) x r, g ((s.setTx x).setRx r) = ((g s).setTx x).setRx r)
    (htx : ∀ s, (g s).tx = s.tx) (hrx : ∀ s, (g s).rx = s.rx) : SameVisible (g s) (g t) := by
  obtain ⟨x, r, rfl, hx, hr⟩ := sameVisible_iff.mp h
  exact sameVisible_iff.mpr ⟨x, r, hunits s x r, by rwa [htx], by rwa [hrx]⟩

theorem SameVisible.arm (h : SameVisible s t) (fam : RxFam) (ph : RxPhase) (n : BitVec 12) :
    SameVisible (s.arm fam ph n) (t.arm fam ph n) := h.setRx (h.rx.arm fam ph n)

theorem SameVisible.complete (h : SameVisible s t) (code : RxSt) : SameVisible (s.complete code) (t.complete code) :=
  h.setRx (h.rx.complete code)

theorem SameVisible.resetBlock (h : SameVisible s t) : SameVisible s.resetBlock t.resetBlock := by
  obtain ⟨x, r, rfl, -, -⟩ := sameVisible_iff.mp h
  exact sameVisible_iff.mpr ⟨txReset, rxReset, rfl, ⟨[], rfl, fun _ _ => rfl⟩, ⟨[], rfl, fun _ _ => rfl⟩⟩

theorem SameVisible.setCk (h : SameVisible s t) (x : CkAcc) : SameVisible (s.setCk x) (t.setCk x) :=
  h.keeping (g := (·.setCk x)) (fun _ _ _ => rfl) (fun _ => rfl) (fun _ => rfl)

end Updates

/-! ## Outcomes alike -/

/-- Two outcomes that stop alike, or go on in states that differ in unread bytes only. -/
inductive Alike : Result → Result → Prop
  | next {s t : State} (h : SameVisible s t) : Alike (.next s) (.next t)
  | fault (f : Fault) : Alike (.fault f) (.fault f)

theorem Alike.exists_next {s' : State} {a b : Result} (h : Alike a b) (ha : a = .next s') :
    ∃ t', b = .next t' ∧ SameVisible s' t' := by
  cases h with
  | next h => cases ha; exact ⟨_, rfl, h⟩
  | fault => cases ha

/-- Two runs that decide alike. -/
theorem Alike.ite {a a' b b' : Result} {c : Prop} [Decidable c] (hpos : c → Alike a a') (hneg : ¬ c → Alike b b') :
    Alike (if c then a else b) (if c then a' else b') := by
  split
  · exact hpos ‹_›
  · exact hneg ‹_›

theorem SameVisible.ite {a a' b b' : State} {c : Prop} [Decidable c] (hpos : c → SameVisible a a')
    (hneg : ¬ c → SameVisible b b') : SameVisible (if c then a else b) (if c then a' else b') := by
  split
  · exact hpos ‹_›
  · exact hneg ‹_›

/-! ## Commands -/

/-- R30, R54: a committed byte has been stored. -/
theorem toNat_rxCommit_le {r : RxUnit} (hinv : RxInv r) : r.rxCommit.toNat ≤ r.rxIdx.toNat := by
  obtain ⟨-, hcommit, hfull, -⟩ := hinv
  by_cases hzero : r.rxCommit = 0#12
  · simp [hzero]
  · obtain ⟨hexp, hidx⟩ := hfull (hcommit hzero)
    rw [hexp, hidx]

section Commands

variable {s t : State} (h : SameVisible s t)
include h

theorem SameVisible.stray : SameVisible s.stray t.stray :=
  h.keeping (fun _ _ _ => rfl) (fun _ => rfl) (fun _ => rfl)

theorem SameVisible.illegal : SameVisible s.illegal t.illegal :=
  h.keeping (fun _ _ _ => rfl) (fun _ => rfl) (fun _ => rfl)

theorem SameVisible.rejectHdx : SameVisible s.rejectHdx t.rejectHdx :=
  h.keeping (fun _ _ _ => rfl) (fun _ => rfl) (fun _ => rfl)

theorem SameVisible.rejectTxlen : SameVisible s.rejectTxlen t.rejectTxlen :=
  h.keeping (fun _ _ _ => rfl) (fun _ => rfl) (fun _ => rfl)

theorem SameVisible.emitSerial (bs : List Byte) : SameVisible (s.emitSerial bs) (t.emitSerial bs) :=
  h.keeping (g := (·.emitSerial bs)) (fun _ _ _ => rfl) (fun _ => rfl) (fun _ => rfl)

theorem SameVisible.emitCan (f : CanFrame) : SameVisible (s.emitCan f) (t.emitCan f) :=
  h.keeping (g := (·.emitCan f)) (fun _ _ _ => rfl) (fun _ => rfl) (fun _ => rfl)

/-- R25: the transmit payload ends at `txLen`. -/
theorem SameVisible.txPayload_eq : t.txPayload = s.txPayload := by
  obtain ⟨_, r, rfl, ⟨m, rfl, hm⟩, -⟩ := sameVisible_iff.mp h
  exact (firstBytes_congr hm).symm

/-- R26: the receive payload ends at or below `rxIdx`. -/
theorem SameVisible.rxPayload_eq (hinv : RxInv s.rx) : t.rxPayload = s.rxPayload := by
  obtain ⟨x, _, rfl, -, ⟨m, rfl, hm⟩⟩ := sameVisible_iff.mp h
  exact (firstBytes_congr (hm.mono (toNat_rxCommit_le hinv))).symm

theorem SameVisible.committedByte_eq (hinv : RxInv s.rx) (i : BitVec 12) : committedByte t i = committedByte s i := by
  obtain ⟨x, _, rfl, -, ⟨m, rfl, hm⟩⟩ := sameVisible_iff.mp h
  refine ite_congr rfl (fun hi => ?_) (fun _ => rfl)
  exact (hm.mono (toNat_rxCommit_le hinv) i.toNat hi).symm

theorem alike_transmit (lo hi : Nat) {a b : State} (hsent : SameVisible a b) :
    Alike (transmit lo hi a s) (transmit lo hi b t) := by
  unfold transmit
  rw [h.rxSt_eq, h.txLen_eq]
  exact .ite (fun _ => .next h.rejectHdx) fun _ => .ite (fun _ => .next h.rejectTxlen) fun _ => .next hsent

theorem alike_armCommand (fam : RxFam) (ph : RxPhase) (n : BitVec 12) :
    Alike (armCommand fam ph n s) (armCommand fam ph n t) := by
  unfold armCommand
  rw [h.rxSt_eq]
  exact .ite (fun _ => .next h.rejectHdx) fun _ => .next (h.arm fam ph n)

theorem alike_withCount (n : Byte) {a b : Result} (hlegal : Alike a b) : Alike (withCount n s a) (withCount n t b) :=
  .ite (fun _ => .next h.illegal) fun _ => hlegal

theorem alike_txPush (hs : Memory.wf Config.txBufSize s.tx.txBuf = true)
    (ht : Memory.wf Config.txBufSize t.tx.txBuf = true) (b : Byte) : Alike (execTxPush b s) (execTxPush b t) := by
  obtain ⟨x, r, rfl, ⟨m, rfl, hm⟩, -⟩ := sameVisible_iff.mp h
  refine .ite (fun _ => .next h.rejectTxlen) fun hroom => .next (h.setTx ⟨_, rfl, (hm.write hs ht b).mono ?_⟩)
  simp only [txAppend]
  bv_omega

theorem alike_rxCancel : Alike (execRxCancel s) (execRxCancel t) := by
  unfold execRxCancel
  rw [h.rxSt_eq]
  exact .ite (fun _ => .next (h.complete _)) fun _ => .next h

theorem alike_timeoutInput : Alike (timeoutInput s) (timeoutInput t) := by
  unfold timeoutInput
  rw [h.rxSt_eq, h.notStarted_eq]
  exact .ite (fun _ => .next (h.complete _)) fun _ => .next h

/-- Every command (R290). -/
theorem alike_exec (hs : Inv s) (ht : Inv t) (i : Instr) : Alike (exec i s) (exec i t) := by
  obtain ⟨hrx, hstx, -⟩ := hs
  obtain ⟨-, httx, -⟩ := ht
  have htx := h.txPayload_eq
  cases i with
  | nop => exact .next h
  | srst => exact .next h.resetBlock
  | clrErr => exact .next (h.keeping (g := (·.setErr clearedFlags)) (fun _ _ _ => rfl) (fun _ => rfl) (fun _ => rfl))
  | ckInit =>
    rw [exec_ckInit, exec_ckInit, h.crc_eq]
    exact .next (h.setCk _)
  | ckFeed b =>
    rw [exec_ckFeed, exec_ckFeed, h.crc_eq, h.ck_eq]
    exact .next (h.setCk _)
  | ckFeedTx =>
    rw [exec_ckFeedTx, exec_ckFeedTx, h.crc_eq, h.ck_eq, htx]
    exact .next (h.setCk _)
  | ckFeedRx =>
    rw [exec_ckFeedRx, exec_ckFeedRx, h.crc_eq, h.ck_eq, h.rxPayload_eq hrx]
    exact .next (h.setCk _)
  | txClr =>
    obtain ⟨_, r, rfl, ⟨m, rfl, -⟩, -⟩ := sameVisible_iff.mp h
    exact .next (h.setTx ⟨m, rfl, agreeBelow_zero _ _⟩)
  | txPush b => exact alike_txPush h hstx httx b
  | txRaw =>
    rw [exec_txRaw, exec_txRaw, htx]
    exact alike_transmit h _ _ (h.emitSerial _)
  | txRawB =>
    rw [exec_txRawB, exec_txRawB, htx]
    exact alike_transmit h _ _ ((h.emitSerial _).arm _ _ _)
  | txRawD =>
    rw [exec_txRawD, exec_txRawD, htx]
    exact alike_transmit h _ _ ((h.emitSerial _).arm _ _ _)
  | txRawC n =>
    change Alike (execTxRawC n s) (execTxRawC n t)
    rw [execTxRawC, execTxRawC, htx]
    exact alike_withCount h n (alike_transmit h _ _ ((h.emitSerial _).arm _ _ _))
  | txBosch =>
    rw [exec_txBosch, exec_txBosch, htx]
    exact alike_transmit h _ _ ((h.emitSerial _).arm _ _ _)
  | txDenso =>
    rw [exec_txDenso, exec_txDenso, htx]
    exact alike_transmit h _ _ ((h.emitSerial _).arm _ _ _)
  | txIsotpSf =>
    rw [exec_txIsotpSf, exec_txIsotpSf, htx, h.can_eq]
    exact alike_transmit h _ _ ((h.emitCan _).arm _ _ _)
  | rxArmB | rxArmD | rxArmI => exact alike_armCommand h _ _ _
  | rxCap n => exact alike_withCount h n (alike_armCommand h _ _ _)
  | rxCancel => exact alike_rxCancel h

/-! ## Host accesses (R60) -/

theorem SameVisible.regRead_eq (hrx : RxInv s.rx) (reg : HostReg) : regRead reg t = regRead reg s := by
  have hbyte := h.committedByte_eq hrx
  cases reg with
  | rxInfo =>
    rw [regRead, regRead, rxInfoWord, rxInfoWord, hbyte]
    obtain ⟨x, _, rfl, -, ⟨m, rfl, -⟩⟩ := sameVisible_iff.mp h
    rfl
  | rxData => rw [regRead, regRead, rxDataWord, rxDataWord, h.rxPtr_eq, hbyte]
  | cmd | status | ckResult | crcCfg | canId | txLen | rxLen | rxPtr | rxProg =>
    obtain ⟨_, _, rfl, ⟨m, rfl, -⟩, ⟨m', rfl, -⟩⟩ := sameVisible_iff.mp h
    rfl

theorem alike_runWord (hs : Inv s) (ht : Inv t) (v : Word) : Alike (runWord v s) (runWord v t) := by
  unfold runWord
  cases decode v with
  | command i => exact alike_exec h hs ht i
  | illegal why => exact .next h.illegal

theorem alike_regWrite (hs : Inv s) (ht : Inv t) (reg : HostReg) (v : Word) :
    Alike (regWrite reg v s) (regWrite reg v t) := by
  cases reg with
  | cmd => exact alike_runWord h hs ht v
  | crcCfg => exact .next (h.keeping (g := (·.setCrc _)) (fun _ _ _ => rfl) (fun _ => rfl) (fun _ => rfl))
  | canId => exact .next (h.keeping (g := (·.setCan _)) (fun _ _ _ => rfl) (fun _ => rfl) (fun _ => rfl))
  | rxPtr => exact .next (h.keeping (g := (·.setRxPtr _)) (fun _ _ _ => rfl) (fun _ => rfl) (fun _ => rfl))
  | status | ckResult | txLen | rxLen | rxInfo | rxData | rxProg => exact .next h

theorem alike_hostRead (hrx : RxInv s.rx) (off : BitVec 8) (bits : Nat) :
    Alike (hostRead off bits s) (hostRead off bits t) := by
  unfold hostRead
  cases accessedReg off bits with
  | none => exact .fault _
  | some reg =>
    dsimp only
    rw [h.regRead_eq hrx reg]
    exact .next (h.keeping (g := (·.emitRead _)) (fun _ _ _ => rfl) (fun _ => rfl) (fun _ => rfl))

theorem alike_hostWrite (hs : Inv s) (ht : Inv t) (off : BitVec 8) (bits : Nat) (v : Word) :
    Alike (hostWrite off bits v s) (hostWrite off bits v t) := by
  unfold hostWrite
  cases accessedReg off bits with
  | none => exact .fault _
  | some reg => exact alike_regWrite h hs ht reg v

/-! ## Serial and CAN input -/

theorem alike_storing {r q : RxUnit} (hrq : SameRx r q) : Alike (storing s r) (storing t q) := by
  unfold storing
  rw [h.rxIdx_eq]
  exact .ite (fun _ => .next (h.setRx hrq)) fun _ => .fault _

section Input

variable (hs : Memory.wf Config.rxBufSize s.rx.rxBuf = true) (ht : Memory.wf Config.rxBufSize t.rx.rxBuf = true)
include hs ht

theorem alike_serialByPhase (b : Byte) : Alike (serialByPhase b s) (serialByPhase b t) := by
  have hrx := h.rx
  unfold serialByPhase
  rw [h.rxPhase_eq]
  cases s.rx.rxPhase with
  | bLen => exact .next (h.setRx (hrx.boschLen b))
  | bBody => exact alike_storing h (hrx.bodyByte hs ht _ b)
  | bChk => exact .next (h.setRx (hrx.boschCheck b))
  | dHunt => exact .next (h.setRx (hrx.densoHunt b))
  | dLen => exact .next (h.setRx (hrx.densoLen b))
  | dBody => exact alike_storing h (hrx.bodyByte hs ht _ b)
  | dChk => exact .next (h.setRx (hrx.densoCheck b))
  | dEtx => exact .next (h.setRx (hrx.densoEtx b))
  | rCap => exact alike_storing h (hrx.captureByte hs ht b)
  | none | iFirst | iCf => exact .fault _

theorem alike_serialInput (b : Byte) : Alike (serialInput b s) (serialInput b t) := by
  unfold serialInput
  rw [h.rxSt_eq, h.rxFam_eq]
  exact .ite (fun _ => .next h.stray) fun _ => alike_serialByPhase h hs ht b

theorem SameVisible.singleFrame (f : CanFrame) : SameVisible (singleFrame f s) (singleFrame f t) := by
  refine .ite (fun _ => h.complete _) fun haccepted => h.setRx ((h.rx.singleFrameAccepted hs ht ?_).complete _)
  omega

theorem SameVisible.firstFrame (f : CanFrame) : SameVisible (firstFrame f s) (firstFrame f t) := by
  unfold Machine.firstFrame
  rw [h.can_eq]
  exact .ite (fun _ => h.complete _) fun _ => .ite (fun _ => h.complete _) fun _ =>
    (h.setRx (h.rx.firstFrameAccepted hs ht f)).emitCan _

theorem SameVisible.consecutiveFrame (f : CanFrame) : SameVisible (consecutiveFrame f s) (consecutiveFrame f t) := by
  have haccepted := h.rx.cfAccepted hs ht f
  obtain ⟨_, _, rfl, -, ⟨m, rfl, -⟩⟩ := sameVisible_iff.mp h
  exact .ite (fun _ => h.complete _) fun _ => .ite (fun _ => h.complete _) fun _ =>
    .ite (fun _ => h.setRx (haccepted.complete _)) fun _ => h.setRx haccepted

theorem SameVisible.inFirstPhase (f : CanFrame) : SameVisible (inFirstPhase f s) (inFirstPhase f t) :=
  .ite (fun _ => h.complete _) fun _ => .ite (fun _ => h.singleFrame hs ht f) fun _ =>
    .ite (fun _ => h.firstFrame hs ht f) fun _ => .ite (fun _ => h) fun _ => h.complete _

theorem SameVisible.inCfPhase (f : CanFrame) : SameVisible (inCfPhase f s) (inCfPhase f t) :=
  .ite (fun _ => h.complete _) fun _ => .ite (fun _ => h.consecutiveFrame hs ht f) fun _ =>
    .ite (fun _ => h) fun _ => h.complete _

theorem alike_canByPhase (f : CanFrame) : Alike (canByPhase f s) (canByPhase f t) := by
  unfold canByPhase
  rw [h.rxPhase_eq]
  cases s.rx.rxPhase with
  | iFirst => exact .next (h.inFirstPhase hs ht f)
  | iCf => exact .next (h.inCfPhase hs ht f)
  | none | bLen | bBody | bChk | dHunt | dLen | dBody | dChk | dEtx | rCap => exact .fault _

theorem alike_canAccepted (f : CanFrame) : Alike (canAccepted f s) (canAccepted f t) := by
  unfold canAccepted
  rw [h.rxSt_eq, h.rxFam_eq]
  refine .ite (fun _ => .next h.stray) fun _ => ?_
  cases s.rx.rxFam with
  | isotp => exact alike_canByPhase h hs ht f
  | bosch | denso | raw => exact .next h.stray
  | none => exact .fault _

theorem alike_canInput (f : CanFrame) : Alike (canInput f s) (canInput f t) := by
  unfold canInput
  rw [h.can_eq]
  exact .ite (fun _ => alike_canAccepted h hs ht f) fun _ => .next h

end Input

/-- Every input (R6). -/
theorem alike_takeEvent (hs : Inv s) (ht : Inv t) (e : Event) : Alike (takeEvent e s) (takeEvent e t) := by
  have ⟨hrx, _, hswf⟩ := hs
  have ⟨_, _, htwf⟩ := ht
  cases e with
  | hostRead off bits => exact alike_hostRead h hrx off bits
  | hostWrite off bits v => exact alike_hostWrite h hs ht off bits v
  | serialRx b => exact alike_serialInput h hswf htwf b
  | canRx f => exact alike_canInput h hswf htwf f
  | timer => exact alike_timeoutInput h
  | reset => exact .next h.resetBlock

end Commands

/-- Settles O56: both states take the same input, and every input keeps the pair alike. -/
theorem unwrittenBufferBytesAreNeverObserved : Obligations.UnwrittenBufferBytesAreNeverObserved := by
  intro s t s' hs ht h hstep
  refine Alike.exists_next ?_ hstep
  unfold step takeInput
  rw [h.inputs_eq]
  cases s.inputs with
  | nil => exact .next h
  | cons e rest =>
    have hrest : SameVisible (s.setInputs rest) (t.setInputs rest) :=
      h.keeping (g := (·.setInputs rest)) (fun _ _ _ => rfl) (fun _ => rfl) (fun _ => rfl)
    exact alike_takeEvent hrest hs ht e

end Sys2Proof.Machine
end

section
/-! PROOFS. The statements about the host port: the registers of 10_state.md section 3 and what a host access does to them
(20_memory.md section 4), the reset values they show, and the model's own list of inputs (entries 1, 2, 17). -/

namespace Sys2Proof.Machine

/-! ## The model's inputs (entries 1, 2, 17) -/

theorem step_of_no_input {s : State} (h : s.inputs = []) : step s = .next s := by
  unfold step takeInput
  rw [h]

/-- A table word that stands for a command decodes to it. -/
theorem decode_tableWord {w : Nat} {i : Instr} (h : decodeTableWord 32 w = some i) :
    decode (tableWord 32 w) = .command i := by
  rw [decodeTableWord, if_pos le_rfl] at h
  cases hd : decode (tableWord 32 w) with
  | command j =>
    rw [hd] at h
    exact congrArg _ (Option.some.inj h)
  | illegal why =>
    rw [hd] at h
    cases h

/-- Settles O6: the placed word is the first input, and the step that takes it runs its command. -/
theorem modelInputListConventions : Obligations.ModelInputListConventions := by
  refine ⟨fun _ => step_of_no_input, fun s w i h => ?_⟩
  calc step (s.withFetchWord 32 w)
    _ = runWord (tableWord 32 w) ((s.withFetchWord 32 w).setInputs s.inputs) := step_of_cmdWrite rfl
    _ = exec i s := runWord_of_command (decode_tableWord h) s

/-! ## The reset values (R42 to R50, R53) -/

/-- Settles O9: the units hold their reset values, and each register evaluates on them. -/
theorem resetStateHoldsTheResetValues : Obligations.ResetStateHoldsTheResetValues :=
  ⟨resetValues_of_units rfl rfl rfl rfl rfl rfl rfl, rfl, rfl, rfl, rfl, rfl, rfl, rfl, rfl, rfl, rfl, rfl⟩

/-! ## Host accesses to a register (R60, R66, R70) -/

section Access

variable (s : State) (r : HostReg)

theorem onInput_hostRead : onInput s (.hostRead (regOffset r) 32) = .next (s.emitRead (regRead r s)) := by
  change hostRead (regOffset r) 32 s = _
  rw [hostRead, accessedReg_eq_some_iff.mpr ⟨rfl, rfl⟩]

theorem onInput_hostWrite (v : Word) : onInput s (.hostWrite (regOffset r) 32 v) = regWrite r v s := by
  change hostWrite (regOffset r) 32 v s = _
  rw [hostWrite, accessedReg_eq_some_iff.mpr ⟨rfl, rfl⟩]

/-- No register shows what the host has read before. -/
theorem regRead_emitRead (v : Word) : regRead r (s.emitRead v) = regRead r s := by
  cases r <;> rfl

end Access

/-- Settles O42: the read records the register's value, which no register shows. -/
theorem hostReadReturnsTheRegister : Obligations.HostReadReturnsTheRegister :=
  fun s r => ⟨onInput_hostRead s r, fun r' => regRead_emitRead s r' _⟩

/-! ## The fields of the registers (R41 to R50) -/

/-- R10: concatenation puts the left field above the right one. -/
theorem toNat_append_eq {k l : Nat} (x : BitVec k) (y : BitVec l) : (x ++ y).toNat = x.toNat * 2 ^ l + y.toNat := by
  rw [BitVec.toNat_append, ← Nat.shiftLeft_add_eq_or_of_lt y.isLt, Nat.shiftLeft_eq]

section Fields

variable (s : State)

theorem statusWord_toNat :
    (statusWord s).toNat = (rxStCode s.rx.rxSt).toNat + 16 * (rxFamCode s.rx.rxFam).toNat +
      256 * (rxPhaseCode s.rx.rxPhase).toNat + 4096 * s.err.errIll.toNat + 8192 * s.err.errHdx.toNat +
      16384 * s.err.errTxlen.toNat + 32768 * s.err.errStray.toNat := by
  simp only [statusWord, toNat_append_eq, BitVec.toNat_ofBool, BitVec.toNat_ofNat]
  omega

theorem negByte_toNat (x : Byte) : (negByte x).toNat = (256 - x.toNat) % 256 := by
  rw [negByte, BitVec.toNat_ofNat]

theorem ckResultWord_toNat :
    (ckResultWord s).toNat = s.ck.ckSum.toNat + 256 * ((256 - s.ck.ckSum.toNat) % 256) + 65536 * s.ck.ckXor.toNat +
      16777216 * (crcOut s.crc s.ck.ckCrc).toNat := by
  simp only [ckResultWord, toNat_append_eq, negByte_toNat]
  omega

theorem crcCfgWord_toNat :
    (crcCfgWord s).toNat = s.crc.crcPoly.toNat + 256 * s.crc.crcInit.toNat + 65536 * s.crc.crcXorout.toNat +
      16777216 * s.crc.crcRefin.toNat + 33554432 * s.crc.crcRefout.toNat := by
  simp only [crcCfgWord, toNat_append_eq, BitVec.toNat_ofBool, BitVec.toNat_ofNat]
  omega

theorem canIdWord_toNat : (canIdWord s).toNat = s.can.reqId.toNat + 65536 * s.can.respId.toNat := by
  simp only [canIdWord, toNat_append_eq, BitVec.toNat_ofNat]
  omega

/-- R47, R49: a byte is shown below `rxCommit` only. -/
theorem committedByte_eq (i : BitVec 12) :
    committedByte s i = if i.toNat < s.rx.rxCommit.toNat then Memory.read s.rx.rxBuf i.toNat else 0#8 := rfl

theorem rxInfoWord_toNat :
    (rxInfoWord s).toNat = (committedByte s 0#12).toNat + 256 * s.rx.chkRx.toNat + 65536 * s.rx.chkCalc.toNat +
      16777216 * s.rx.chkSeen.toNat + 33554432 * s.rx.chkMatch.toNat := by
  simp only [rxInfoWord, toNat_append_eq, BitVec.toNat_ofBool, BitVec.toNat_ofNat]
  omega

theorem rxProgWord_toNat :
    (rxProgWord s).toNat = s.rx.rxIdx.toNat + 65536 * s.rx.rxExp.toNat + 268435456 * s.rx.rxSn.toNat := by
  simp only [rxProgWord, toNat_append_eq, BitVec.toNat_ofNat]
  omega

end Fields

/-- Settles O43: each register word is the concatenation of its fields, or one field extended by zeros. -/
theorem registersShowTheirFields : Obligations.RegistersShowTheirFields := by
  intro s
  exact ⟨statusWord_toNat s, ckResultWord_toNat s, crcCfgWord_toNat s, canIdWord_toNat s,
    BitVec.toNat_setWidth_of_le (by decide), BitVec.toNat_setWidth_of_le (by decide), rxInfoWord_toNat s,
    BitVec.toNat_setWidth_of_le (by decide), BitVec.toNat_setWidth_of_le (by decide), rxProgWord_toNat s⟩

/-! ## Writes (R43, R44, R48, R51) -/

section Writes

variable (s : State) (v : Word)

/-- R43: `CRC_CFG` reads back what was written to it, bits [25:0]. -/
theorem crcCfgWord_crcCfgOf : crcCfgWord (s.setCrc (crcCfgOf v)) = v &&& 0x03FFFFFF#32 := by
  apply BitVec.eq_of_getLsbD_eq
  intro i hi
  simp only [crcCfgWord, crcCfgOf, State.setCrc_crc, BitVec.getLsbD_append, BitVec.getLsbD_and,
    BitVec.getLsbD_extractLsb', BitVec.getLsbD_ofBool]
  interval_cases i <;> simp

theorem canIdWord_canIdsOf : canIdWord (s.setCan (canIdsOf v)) = v &&& 0x07FF07FF#32 := by
  apply BitVec.eq_of_getLsbD_eq
  intro i hi
  simp only [canIdWord, canIdsOf, State.setCan_can, BitVec.getLsbD_append, BitVec.getLsbD_and,
    BitVec.getLsbD_extractLsb']
  interval_cases i <;> simp

theorem rxPtrWord_rxPtrOf : rxPtrWord (s.setRxPtr (rxPtrOf v)) = v &&& 0x00000FFF#32 := by
  apply BitVec.eq_of_getLsbD_eq
  intro i hi
  simp only [rxPtrWord, rxPtrOf, State.setRxPtr_rxPtr, BitVec.getLsbD_setWidth, BitVec.getLsbD_and,
    BitVec.getLsbD_extractLsb']
  interval_cases i <;> simp

/-- R51: the registers the host cannot write. -/
theorem regWrite_readOnly {r : HostReg}
    (hr : r ∈ [HostReg.status, .ckResult, .txLen, .rxLen, .rxInfo, .rxData, .rxProg]) : regWrite r v s = .next s := by
  fin_cases hr <;> rfl

end Writes

/-- Settles O44: a write reaches its register, which stores its fields or ignores the write. -/
theorem registerWritesStoreTheirFields : Obligations.RegisterWritesStoreTheirFields := by
  intro s v
  refine ⟨⟨crcCfgOf v, onInput_hostWrite s .crcCfg v, crcCfgWord_crcCfgOf s v⟩,
    ⟨canIdsOf v, onInput_hostWrite s .canId v, canIdWord_canIdsOf s v⟩,
    ⟨rxPtrOf v, onInput_hostWrite s .rxPtr v, rxPtrWord_rxPtrOf s v⟩, fun r hr => ?_⟩
  rw [onInput_hostWrite, regWrite_readOnly s v hr]

end Sys2Proof.Machine
end

section
/-! PROOFS. The statements about whole serial receives: the round trips of 41_framer.md section 5 and the parsers as
functions of a byte list (42_parser.md section 5). `Decodes` says what a receiver makes of a byte list and one timeout; the
parsers of R209 are computed on the receiver (`decodes_bosch`, `decodes_denso`) and carried to the machine once
(`exists_runInputs_of_decodes`). -/

namespace Sys2Proof.Machine

/-! ## Round trips (R160) -/

/-- R160: a frame that the armed receiver takes whole. -/
theorem runInputs_frame {s : State} {i : Instr} {fam : RxFam} {ph : RxPhase} {n : BitVec 12} {r : RxUnit}
    {bs : List Byte} (ha : Arming i fam ph n) (hidle : Idle s) (h : SerialRun (rxArm fam ph n s.rx) bs r) :
    runInputs s (commandEvents [i] ++ serialEvents bs) = .next ((s.setRx r).setInputs []) := by
  have hrun := runInputs_arm_serialRun ha hidle h []
  rwa [List.append_nil] at hrun

/-- R96, R191: the encoded checksum is the one the parser computes. -/
theorem boschVerdict_boschChk (p : List Byte) : boschVerdict (BitVec.ofNat 8 p.length) (boschChk p) p = .ok :=
  if_pos (BitVec.add_comm _ _)

theorem densoVerdict_densoChk (p : List Byte) : densoVerdict (densoChk p) Config.etx p = .ok :=
  (if_neg (not_not_intro rfl)).trans (if_pos rfl)

/-- Settles O35: the encoded bytes are a whole Bosch frame with a matching checksum. -/
theorem boschRoundTrip : Obligations.BoschRoundTrip := by
  intro s p hidle hwf hpos hle
  have hne := ofNat_length_ne_zero hpos hle
  have hlen := toNat_ofNat_length hle
  refine ⟨_, runInputs_frame arming_rxArmB hidle (serialRun_boschFrame rfl rfl hne hlen (boschChk p)), ?_, ?_, rfl⟩
  · exact (rxSt_boschCheck hne _).trans (boschVerdict_boschChk p)
  · refine (payload_boschCheck (r := rxArm .bosch .bLen 0#12 s.rx) rfl hwf hne hlen _).trans ?_
    rw [boschVerdict_boschChk, if_pos rfl]

/-- Settles O36: the encoded bytes are a whole Denso frame with a matching checksum and its `ETX`. -/
theorem densoRoundTrip : Obligations.DensoRoundTrip := by
  intro s p hidle hwf hle
  have hlen := toNat_ofNat_length hle
  refine ⟨_, runInputs_frame arming_rxArmD hidle (serialRun_densoFrame rfl rfl hlen (densoChk p) Config.etx), ?_, ?_, rfl⟩
  · exact (congrArg RxUnit.rxSt (densoEnd_eq _ _)).trans (densoVerdict_densoChk p)
  · refine (payload_densoEnd (r := rxArm .denso .dHunt 0#12 s.rx) rfl hwf hlen _ _).trans ?_
    rw [densoVerdict_densoChk, if_pos rfl]

/-! ## What a receiver makes of a byte list (R209) -/

/-- Receiver `r` takes the first bytes of a list, as many as the number says, and ends with the decoding: completed by
the last of them, or by the timeout after the whole list. -/
inductive Decodes (r : RxUnit) : List Byte → Decoding → Nat → Prop
  | completed {r' : RxUnit} {bs : List Byte} (h : SerialRun r bs r') (hend : r'.rxSt ≠ .busy) (rest : List Byte) :
      Decodes r (bs ++ rest) { status := r'.rxSt, payload := r'.payload } bs.length
  | timedOut {r' : RxUnit} {bs : List Byte} (h : SerialRun r bs r') (hb : r'.rxSt = .busy) :
      Decodes r bs (failed (if notStarted r' then .timeout else .short)) bs.length

/-- One byte more in front. -/
theorem Decodes.cons {r r' : RxUnit} {b : Byte} {bs : List Byte} {d : Decoding} {k : Nat}
    (hstep : ReceiverStep r (.serialRx b) r') (h : Decodes r' bs d k) : Decodes r (b :: bs) d (1 + k) := by
  rw [Nat.add_comm]
  cases h with
  | completed h hend rest => exact .completed (.cons hstep h) hend rest
  | timedOut h hb => exact .timedOut (.cons hstep h) hb

/-- R206, R207, R209: the machine does what its receiver does; the bytes the receiver does not take are stray. -/
theorem exists_runInputs_of_decodes {s : State} {i : Instr} {fam : RxFam} {ph : RxPhase} {n : BitVec 12}
    {xs : List Byte} {d : Decoding} {k : Nat} (ha : Arming i fam ph n) (hidle : Idle s)
    (h : Decodes (rxArm fam ph n s.rx) xs d k) :
    ∃ t, runInputs s (commandEvents [i] ++ serialEvents xs ++ [.timer]) = .next t ∧ t.decoding = d ∧
      t.err.errStray = (s.err.errStray || decide (k < xs.length)) := by
  cases h with
  | @completed r bs h hend rest =>
    refine ⟨(if rest = [] then s.setRx r else (s.setRx r).stray).setInputs [], ?_, ?_, ?_⟩
    · rw [serialEvents, List.map_append, List.append_assoc, List.append_assoc]
      exact (runInputs_arm_serialRun ha hidle h _).trans (runInputs_stray hend rest)
    · split <;> rfl
    · cases rest <;> simp
  | @timedOut r _ h hb =>
    refine ⟨((s.setRx r).complete (if notStarted r then .timeout else .short)).setInputs [], ?_, ?_, ?_⟩
    · rw [List.append_assoc]
      exact (runInputs_arm_serialRun ha hidle h _).trans (runInputs_timer hb)
    · refine congrArg (Decoding.mk _) ?_
      exact (payload_rxComplete _ r).trans (if_neg (by split <;> simp))
    · simp

theorem exists_split_at {n : Nat} {xs : List Byte} (h : n < xs.length) :
    ∃ p c rest, xs = p ++ c :: rest ∧ p.length = n :=
  ⟨xs.take n, xs[n], xs.drop (n + 1), by simp, by simp; omega⟩

/-! ## The Bosch parser (R189 to R191, R209) -/

section Bosch

variable {len c : Byte} {p rest : List Byte}

theorem decBosch_of_short (hpos : len ≠ 0#8) (h : rest.length ≤ len.toNat) : decBosch (len :: rest) = failed .short := by
  rw [decBosch, if_neg hpos, if_pos (Nat.lt_succ_of_le h)]

theorem decBosch_of_frame (hpos : len ≠ 0#8) (hlen : p.length = len.toNat) :
    decBosch (len :: (p ++ c :: rest)) =
      { status := boschVerdict len c p, payload := if boschVerdict len c p = .ok then p else [] } := by
  have hroom : ¬ (p ++ c :: rest).length < p.length + 1 := by simp
  rw [decBosch, if_neg hpos, ← hlen, if_neg hroom, List.take_left, List.getD_append_right _ _ _ _ le_rfl,
    Nat.sub_self, List.getD_cons_zero, boschVerdict, BitVec.add_comm]
  split <;> rfl

theorem consumedBosch_of_short (hpos : len ≠ 0#8) (h : rest.length ≤ len.toNat) :
    consumedBosch (len :: rest) = (len :: rest).length := by
  rw [consumedBosch, if_neg hpos, List.length_cons]
  omega

theorem consumedBosch_of_frame (hpos : len ≠ 0#8) (hlen : p.length = len.toNat) :
    consumedBosch (len :: (p ++ c :: rest)) = (len :: (p ++ [c])).length := by
  rw [consumedBosch, if_neg hpos]
  simp only [List.length_append, List.length_cons, List.length_nil]
  omega

/-- R209: the Bosch parser computes `DecBosch`, by its `LEN` byte and the bytes that follow it. -/
theorem decodes_bosch {r : RxUnit} (hb : r.rxSt = .busy) (hp : r.rxPhase = .bLen) (hidx : r.rxIdx = 0#12)
    (hwf : Memory.wf Config.rxBufSize r.rxBuf = true) (xs : List Byte) :
    Decodes r xs (decBosch xs) (consumedBosch xs) := by
  cases xs with
  | nil =>
    have h := Decodes.timedOut (.nil r) hb
    rwa [if_pos (notStarted_iff.mpr (.inl (by simp [hp])))] at h
  | cons len rest =>
    by_cases hzero : len = 0#8
    · have h := Decodes.completed (.single (.boschLen (b := len) hp)) (by simp [boschLen_of_zero hzero]) rest
      subst hzero
      exact h
    by_cases hshort : rest.length ≤ len.toNat
    · have hrun := serialRun_boschBody hp hidx hzero hshort
      rw [decBosch_of_short hzero hshort, consumedBosch_of_short hzero hshort]
      rw [boschLen_of_ne hzero] at hrun
      have h := Decodes.timedOut hrun hb
      rwa [notStarted_bodyBytes (by simp) (by simp), if_neg Bool.false_ne_true] at h
    · obtain ⟨p, c, tail, rfl, hlen⟩ := exists_split_at (Nat.lt_of_not_le hshort)
      have hrun := serialRun_boschFrame hp hidx hzero hlen c
      have hend : (boschCheck c (bodyBytes .bChk p (boschLen len r))).rxSt ≠ .busy := by
        rw [rxSt_boschCheck hzero]
        unfold boschVerdict
        split <;> nofun
      have h := Decodes.completed hrun hend tail
      rw [rxSt_boschCheck hzero, payload_boschCheck hidx hwf hzero hlen, ← decBosch_of_frame hzero hlen (rest := tail),
        ← consumedBosch_of_frame hzero hlen (rest := tail)] at h
      simpa using h

end Bosch

/-- Settles O38: the armed receiver computes `DecBosch`. -/
theorem boschParserIsDecBosch : Obligations.BoschParserIsDecBosch := fun s xs hidle hwf =>
  exists_runInputs_of_decodes arming_rxArmB hidle
    (decodes_bosch (r := rxArm .bosch .bLen 0#12 s.rx) rfl rfl rfl hwf xs)

/-! ## The Denso parser (R192 to R196, R209) -/

section Denso

variable {len c e : Byte} {p rest : List Byte}

theorem decDensoBody_of_short (h : rest.length ≤ len.toNat + 1) : decDensoBody (len :: rest) = failed .short := by
  rw [decDensoBody, if_pos (Nat.lt_succ_of_le h)]

theorem decDensoBody_of_frame (hlen : p.length = len.toNat) :
    decDensoBody (len :: (p ++ c :: e :: rest)) =
      { status := densoVerdict c e p, payload := if densoVerdict c e p = .ok then p else [] } := by
  have hroom : ¬ (p ++ c :: e :: rest).length < p.length + 2 := by simp
  have hetx : (p ++ c :: e :: rest).getD (p.length + 1) 0#8 = e := by simp
  have hchk : (p ++ c :: e :: rest).getD p.length 0#8 = c := by simp
  rw [decDensoBody, ← hlen, if_neg hroom, hetx, hchk, List.take_left, densoVerdict]
  by_cases he : e = Config.etx
  · by_cases hc : c = twoc8 p <;> simp [he, hc, failed]
  · simp [he, failed]

theorem decDenso_stx : decDenso (Config.stx :: rest) = decDensoBody rest := if_pos rfl

theorem decDenso_cons_of_ne {b : Byte} (hb : b ≠ Config.stx) : decDenso (b :: rest) = decDenso rest := if_neg hb

theorem consumedDenso_cons_of_ne {b : Byte} (hb : b ≠ Config.stx) :
    consumedDenso (b :: rest) = 1 + consumedDenso rest := if_neg hb

theorem consumedDenso_stx_cons : consumedDenso (Config.stx :: len :: rest) = 2 + min rest.length (len.toNat + 2) :=
  if_pos rfl

variable {r : RxUnit} (hp : r.rxPhase = .dHunt)
include hp

/-- R193, R207: a frame that ends at its `STX`. -/
theorem decodes_denso_stx (hb : r.rxSt = .busy) : Decodes r [Config.stx] (decDenso [Config.stx]) 1 := by
  have hstep := ReceiverStep.densoHunt (b := Config.stx) hp
  rw [densoHunt_of_stx rfl] at hstep
  exact .timedOut (.single hstep) hb

variable (hidx : r.rxIdx = 0#12)
include hidx

/-- R194, R195, R207: a frame that ends before its `ETX` byte. -/
theorem decodes_denso_short (hb : r.rxSt = .busy) (h : rest.length ≤ len.toNat + 1) :
    Decodes r (Config.stx :: len :: rest) (failed .short) (rest.length + 2) := by
  obtain hbody | hcheck := Nat.le_succ_iff.mp h
  · have hd := Decodes.timedOut (serialRun_densoBody hp hidx hbody) hb
    have hphase : (densoStart len r).rxPhase ∈ [.bBody, .dBody, .dChk] := by
      simp only [densoStart, densoLen]
      split <;> simp
    rwa [notStarted_bodyBytes (by simp) hphase, if_neg Bool.false_ne_true] at hd
  · obtain rfl | ⟨p, c, rfl⟩ := List.eq_nil_or_concat' rest
    · simp at hcheck
    · exact .timedOut (serialRun_densoCheck hp hidx (by simpa using hcheck) c) hb

variable (hwf : Memory.wf Config.rxBufSize r.rxBuf = true)
include hwf

/-- R196: a whole frame, with anything behind it. -/
theorem decodes_denso_frame (hlen : p.length = len.toNat) :
    Decodes r (Config.stx :: len :: (p ++ c :: e :: rest)) (decDensoBody (len :: (p ++ c :: e :: rest)))
      (p.length + 4) := by
  have hend : (densoEtx e (densoCheck c (bodyBytes .dChk p (densoStart len r)))).rxSt ≠ .busy := by
    rw [densoEnd_eq, rxComplete_rxSt]
    unfold densoVerdict
    split_ifs <;> nofun
  have h := Decodes.completed (serialRun_densoFrame hp hidx hlen c e) hend rest
  rw [payload_densoEnd hidx hwf hlen, densoEnd_eq, rxComplete_rxSt, ← decDensoBody_of_frame hlen (rest := rest)] at h
  simpa using h

/-- R209: the Denso parser computes `DecDenso`: the hunt drops the bytes before `STX`, one by one. -/
theorem decodes_denso (hb : r.rxSt = .busy) (xs : List Byte) : Decodes r xs (decDenso xs) (consumedDenso xs) := by
  induction xs with
  | nil =>
    have h := Decodes.timedOut (.nil r) hb
    rwa [if_pos (notStarted_iff.mpr (.inl (by simp [hp])))] at h
  | cons b rest ih =>
    by_cases hstx : b = Config.stx
    case neg =>
      have hstep := ReceiverStep.densoHunt (b := b) hp
      rw [densoHunt_of_ne hstx] at hstep
      rw [decDenso_cons_of_ne hstx, consumedDenso_cons_of_ne hstx]
      exact .cons hstep ih
    subst hstx
    cases rest with
    | nil => exact decodes_denso_stx hp hb
    | cons len body =>
      rw [decDenso_stx, consumedDenso_stx_cons]
      by_cases hshort : body.length ≤ len.toNat + 1
      · rw [decDensoBody_of_short hshort, show 2 + min body.length (len.toNat + 2) = body.length + 2 by omega]
        exact decodes_denso_short hp hidx hb hshort
      · obtain ⟨p, c, tail, rfl, hlen⟩ := exists_split_at (show len.toNat < body.length by omega)
        cases tail with
        | nil => simp [hlen] at hshort
        | cons e tail =>
          rw [show 2 + min (p ++ c :: e :: tail).length (len.toNat + 2) = p.length + 4 by simp; omega]
          exact decodes_denso_frame hp hidx hwf hlen

end Denso

/-- Settles O39: the armed receiver computes `DecDenso`. -/
theorem densoParserIsDecDenso : Obligations.DensoParserIsDecDenso := fun s xs hidle hwf =>
  exists_runInputs_of_decodes arming_rxArmD hidle
    (decodes_denso (r := rxArm .denso .dHunt 0#12 s.rx) rfl rfl hwf rfl xs)

end Sys2Proof.Machine
end

section
/-! PROOFS. The statements about whole ISO-TP receives: the single frame's round trip (41_framer.md section 5) and the
reassembly of a message (43_isotp.md section 4). Between two frames of a message the receiver is `Collecting`: it holds
the bytes so far and waits for the rest. The first frame starts that, every consecutive frame keeps it with more bytes
(`Collecting.cfAccepted`), and the receive completes when none is missing. -/

namespace Sys2Proof.Machine

/-! ## The data bytes of a frame (R98 to R100, R103) -/

/-- Bytes that stand together in a frame are the slice at their place. -/
theorem slice_canFrameOf (id : BitVec 11) (dlc : Fin 9) {pre mid post : List Byte}
    (h : (pre ++ (mid ++ post)).length ≤ 8) :
    (canFrameOf id dlc (pre ++ (mid ++ post))).slice pre.length mid.length = mid := by
  rw [CanFrame.slice, bytes_canFrameOf id dlc h, List.append_assoc, List.drop_left, List.append_assoc, List.take_left]

/-- R102: the high half of a first data byte is its PCI. -/
theorem pciByte_div {n x : BitVec 4} : (n ++ x : BitVec 8).toNat / 16 = n.toNat := by
  rw [toNat_append_eq]
  omega

theorem pciByte_mod {n x : BitVec 4} : (n ++ x : BitVec 8).toNat % 16 = x.toNat := by
  rw [toNat_append_eq]
  omega

/-- A full frame is not an empty one (R62). -/
theorem fullDlc_ne_zero : (8 : Fin 9).val ≠ 0 := by decide

/-! ## Frames taken by an armed receiver (R232) -/

section Frames

variable {s : State} {f : CanFrame} (hid : f.id = s.can.respId) (hb : s.rx.rxSt = .busy) (hfam : s.rx.rxFam = .isotp)
include hid hb hfam

theorem canInput_of_armed : canInput f s = canByPhase f s := by
  rw [canInput_of_respId hid, canAccepted, if_neg (not_not_intro hb), hfam]

theorem canInput_iFirst (hp : s.rx.rxPhase = .iFirst) : canInput f s = .next (inFirstPhase f s) := by
  rw [canInput_of_armed hid hb hfam, canByPhase, hp]

theorem canInput_iCf (hp : s.rx.rxPhase = .iCf) : canInput f s = .next (inCfPhase f s) := by
  rw [canInput_of_armed hid hb hfam, canByPhase, hp]

end Frames

theorem arming_rxArmI : Arming .rxArmI .isotp .iFirst 0#12 := ⟨.rxArmI, decode_commandWord 0x32#8 0#8, exec_rxArmI⟩

/-- R231: the arming command, and the inputs that follow it. -/
theorem runInputs_rxArmI {s : State} (hidle : Idle s) (es : List Event) :
    runInputs s (commandEvents [.rxArmI] ++ es) = runInputs (s.arm .isotp .iFirst 0#12) es :=
  runInputs_arm_serialRun arming_rxArmI hidle (.nil _) es

/-! ## Messages of one frame (R234) -/

section Single

/-- The single frame that carries the payload `p`, with `fill` behind it (R98). -/
def singleFrameOf (id : BitVec 11) (p fill : List Byte) : CanFrame :=
  canFrameOf id 8 (BitVec.ofNat 8 p.length :: (p ++ fill))

variable {p fill : List Byte} (hcap : p.length ≤ 7) (id : BitVec 11)
include hcap

theorem singleFrameOf_pci : (singleFrameOf id p fill).d0.toNat / 16 = 0 := by
  change (BitVec.ofNat 8 p.length).toNat / 16 = 0
  rw [BitVec.toNat_ofNat]
  omega

/-- R98: the length is the low half of the first byte. -/
theorem singleFrameOf_length : (singleFrameOf id p fill).d0.toNat % 16 = p.length := by
  change (BitVec.ofNat 8 p.length).toNat % 16 = p.length
  rw [BitVec.toNat_ofNat]
  omega

theorem runInputs_singleFrame {s : State} (hidle : Idle s) (hpos : 1 ≤ p.length) :
    runInputs s (commandEvents [.rxArmI] ++ canEvents [singleFrameOf s.can.respId p fill]) =
      .next ((s.setRx (rxComplete .ok (singleFrameAccepted (singleFrameOf s.can.respId p fill)
        (rxArm .isotp .iFirst 0#12 s.rx)))).setInputs []) := by
  have hlen := singleFrameOf_length (fill := fill) hcap s.can.respId
  have hroom : 1 + (singleFrameOf s.can.respId p fill).d0.toNat % 16 ≤ 8 := by omega
  rw [runInputs_rxArmI hidle]
  refine runInputs_cons ((canInput_iFirst rfl rfl rfl rfl).trans (congrArg _ ?_))
  rw [inFirstPhase_of_single fullDlc_ne_zero (singleFrameOf_pci hcap _)]
  exact singleFrame_of_accepted (hlen.symm ▸ hpos) (hlen.symm ▸ hcap) hroom

theorem payload_singleFrame {r : RxUnit} (hwf : Memory.wf Config.rxBufSize r.rxBuf = true)
    (hfits : (p ++ fill).length ≤ 7) : (rxComplete .ok (singleFrameAccepted (singleFrameOf id p fill) r)).payload = p := by
  have hlo : (singleFrameOf id p fill).lo.toNat = p.length := (lo_toNat _).trans (singleFrameOf_length hcap id)
  have hslice : (singleFrameOf id p fill).slice 1 p.length = p :=
    slice_canFrameOf id 8 (pre := [BitVec.ofNat 8 p.length]) (Nat.succ_le_succ hfits)
  have hexp : ((singleFrameOf id p fill).lo.setWidth 12).toNat = p.length :=
    (BitVec.toNat_setWidth_of_le (by decide)).trans hlo
  have hstored : StoredAt r.rxBuf (Memory.writeList r.rxBuf 0 p) 0 p :=
    read_writeList p hwf (by simp only [Config.rxBufSize]; omega)
  rw [payload_rxComplete, if_pos rfl]
  simp only [singleFrameAccepted, rxStoreAll_rxBuf, hlo, hslice, hexp]
  simpa using firstBytes_of_storedAt hstored

end Single

theorem encSF_eq (id : BitVec 11) (p : List Byte) : encSF id p = singleFrameOf id p [] := by
  rw [singleFrameOf, List.append_nil]
  rfl

/-- Settles O37: the encoded frame is a single frame that carries the payload. -/
theorem singleFrameRoundTrip : Obligations.SingleFrameRoundTrip := by
  intro s p hidle hwf hpos hcap
  rw [encSF_eq]
  exact ⟨_, runInputs_singleFrame hcap hidle hpos, rfl,
    payload_singleFrame (r := rxArm .isotp .iFirst 0#12 s.rx) hcap _ hwf (by simpa), rfl, rfl⟩

/-! ## A message in progress (R235, R239) -/

/-- Receiver `r` has stored the bytes `got` of a message of `n` bytes, and waits for the frame with sequence number
`sn`. -/
structure Collecting (got : List Byte) (n : Nat) (sn : BitVec 4) (r : RxUnit) : Prop where
  busy : r.rxSt = .busy
  family : r.rxFam = .isotp
  phase : r.rxPhase = .iCf
  expected : r.rxExp.toNat = n
  count : r.rxIdx.toNat = got.length
  sequence : r.rxSn = sn
  canonical : Memory.wf Config.rxBufSize r.rxBuf = true
  bytes : Memory.firstBytes r.rxBuf got.length = got

section First

variable {m : List Byte} (hmin : 8 ≤ m.length) (hmax : m.length ≤ 4095)

/-- The first frame of a message (R99). -/
def firstFrameOf (id : BitVec 11) (m : List Byte) : CanFrame :=
  canFrameOf id 8 ((0x1#4 ++ (BitVec.ofNat 12 m.length).extractLsb' 8 4 : BitVec 8) ::
    (BitVec.ofNat 12 m.length).extractLsb' 0 8 :: m.take Config.ffDataBytes)

theorem firstFrameOf_pci (id : BitVec 11) : (firstFrameOf id m).d0.toNat / 16 = 1 := pciByte_div

include hmax in
/-- R67, R99: the total length is that of the message. -/
theorem firstFrameOf_total (id : BitVec 11) :
    ((firstFrameOf id m).d0.toNat % 16) * 256 + (firstFrameOf id m).d1.toNat = m.length := by
  have hd0 : (firstFrameOf id m).d0.toNat % 16 = m.length / 256 % 16 := by
    refine pciByte_mod.trans ?_
    rw [BitVec.extractLsb'_toNat, Nat.shiftRight_eq_div_pow, BitVec.toNat_ofNat]
    omega
  have hd1 : (firstFrameOf id m).d1.toNat = m.length % 256 := by
    change ((BitVec.ofNat 12 m.length).extractLsb' 0 8).toNat = _
    rw [BitVec.extractLsb'_toNat, Nat.shiftRight_zero, BitVec.toNat_ofNat]
    omega
  omega

include hmin in
theorem take_ffDataBytes_length : (m.take Config.ffDataBytes).length = 6 := by
  rw [List.length_take, Config.ffDataBytes]
  omega

include hmin hmax

/-- R235: the first frame leaves its six bytes in `RXBUF`. -/
theorem collecting_firstFrame {r : RxUnit} (hb : r.rxSt = .busy) (hfam : r.rxFam = .isotp)
    (hwf : Memory.wf Config.rxBufSize r.rxBuf = true) (id : BitVec 11) :
    Collecting (m.take Config.ffDataBytes) m.length 1#4 (firstFrameAccepted (firstFrameOf id m) r) := by
  have hlen := take_ffDataBytes_length hmin
  have hslice : (firstFrameOf id m).slice 2 Config.ffDataBytes = m.take Config.ffDataBytes := by
    have h := slice_canFrameOf id 8 (mid := m.take Config.ffDataBytes) (post := [])
      (pre := [(0x1#4 ++ (BitVec.ofNat 12 m.length).extractLsb' 8 4 : BitVec 8),
        (BitVec.ofNat 12 m.length).extractLsb' 0 8]) (by simp [hlen])
    rw [hlen, List.append_nil] at h
    exact h
  have hfits : 0 + (m.take Config.ffDataBytes).length ≤ Config.rxBufSize := by rw [hlen]; decide
  have hbuf : (firstFrameAccepted (firstFrameOf id m) r).rxBuf =
      Memory.writeList r.rxBuf 0 (m.take Config.ffDataBytes) := by
    rw [← hslice]
    rfl
  refine ⟨hb, hfam, rfl, ?_, hlen.symm, rfl, ?_, ?_⟩
  · exact (totalLength_toNat _).trans (firstFrameOf_total hmax id)
  · rw [hbuf]
    exact writeList_wf _ hwf hfits
  · rw [hbuf]
    simpa using firstBytes_of_storedAt (read_writeList _ hwf hfits)

end First

section Consecutive

/-- The consecutive frame that carries the first of the bytes `bs` (R100). -/
def consecutiveFrameOf (id : BitVec 11) (pad : Byte) (sn : BitVec 4) (bs : List Byte) : CanFrame :=
  canFrameOf id 8 (((0x2#4 ++ sn : BitVec 8) :: bs.take Config.cfDataBytes) ++
    List.replicate (Config.cfDataBytes - bs.length) pad)

variable (id : BitVec 11) (pad : Byte)

@[simp] theorem consecutiveFrames_nil (fuel : Nat) (sn : BitVec 4) : consecutiveFrames id pad fuel sn [] = [] := by
  cases fuel <;> rfl

theorem consecutiveFrames_of_ne (fuel : Nat) (sn : BitVec 4) {bs : List Byte} (h : bs ≠ []) :
    consecutiveFrames id pad (fuel + 1) sn bs =
      consecutiveFrameOf id pad sn bs :: consecutiveFrames id pad fuel (sn + 1#4) (bs.drop Config.cfDataBytes) := by
  cases bs with
  | nil => exact absurd rfl h
  | cons b bs => rfl

/-- R245: seven bytes to a frame. -/
theorem consecutiveFrames_length {fuel : Nat} (sn : BitVec 4) {bs : List Byte} (h : bs.length ≤ fuel) :
    (consecutiveFrames id pad fuel sn bs).length = (bs.length + 6) / 7 := by
  induction fuel generalizing sn bs with
  | zero =>
    obtain rfl := List.eq_nil_of_length_eq_zero (Nat.le_zero.mp h)
    rfl
  | succ fuel ih =>
    by_cases hnil : bs = []
    · subst hnil
      simp
    · have hpos := List.length_pos_iff.mpr hnil
      have hdrop : (bs.drop Config.cfDataBytes).length = bs.length - 7 := List.length_drop
      rw [consecutiveFrames_of_ne id pad fuel sn hnil, List.length_cons, ih _ (by omega), hdrop]
      omega

theorem consecutiveFrameOf_pci (sn : BitVec 4) (bs : List Byte) :
    (consecutiveFrameOf id pad sn bs).d0.toNat / 16 = 2 := pciByte_div

theorem consecutiveFrameOf_sn (sn : BitVec 4) (bs : List Byte) :
    (consecutiveFrameOf id pad sn bs).d0.toNat % 16 = sn.toNat := pciByte_mod

theorem slice_consecutiveFrameOf (sn : BitVec 4) (bs : List Byte) :
    (consecutiveFrameOf id pad sn bs).slice 1 (bs.take Config.cfDataBytes).length = bs.take Config.cfDataBytes := by
  refine slice_canFrameOf id 8 (pre := [(0x2#4 ++ sn : BitVec 8)]) ?_
  simp only [List.length_append, List.length_take, List.length_replicate, List.length_singleton, Config.cfDataBytes]
  omega

variable {got bs : List Byte} {sn : BitVec 4} {r : RxUnit}

/-- R239: the bytes owed are those of the next frame. -/
theorem Collecting.owedBytes_eq (hc : Collecting got (got.length + bs.length) sn r) :
    owedBytes r = (bs.take Config.cfDataBytes).length := by
  rw [owedBytes, hc.expected, hc.count, List.length_take, Nat.add_sub_cancel_left]

/-- R239: the next frame's bytes are stored behind those held. -/
theorem Collecting.cfAccepted (hc : Collecting got (got.length + bs.length) sn r) :
    Collecting (got ++ bs.take Config.cfDataBytes) (got.length + bs.length) (sn + 1#4)
      (cfAccepted (consecutiveFrameOf id pad sn bs) r) := by
  have howed := hc.owedBytes_eq
  have hexp := hc.expected
  have htake : (bs.take Config.cfDataBytes).length ≤ bs.length := List.length_take_le' _ _
  have hbuf : (Machine.cfAccepted (consecutiveFrameOf id pad sn bs) r).rxBuf =
      Memory.writeList r.rxBuf got.length (bs.take Config.cfDataBytes) := by
    rw [cfAccepted_rxBuf, howed, slice_consecutiveFrameOf, hc.count]
  have hfits : got.length + (bs.take Config.cfDataBytes).length ≤ Config.rxBufSize := by
    simp only [Config.rxBufSize]
    omega
  refine ⟨hc.busy, hc.family, hc.phase, hexp, ?_, ?_, ?_, ?_⟩
  · rw [cfAccepted_rxIdx, howed, BitVec.toNat_add, hc.count, BitVec.toNat_ofNat, List.length_append]
    omega
  · rw [cfAccepted_rxSn, hc.sequence]
  · rw [hbuf]
    exact writeList_wf _ hc.canonical hfits
  · rw [hbuf, List.length_append, firstBytes_of_storedAt (read_writeList _ hc.canonical hfits), hc.bytes]

/-- R239: the receive completes when no byte is missing. -/
theorem Collecting.rxIdx_eq_rxExp_iff {n : Nat} (hc : Collecting got n sn r) : r.rxIdx = r.rxExp ↔ got.length = n := by
  rw [← BitVec.toNat_inj, hc.count, hc.expected]

theorem Collecting.payload_complete (hc : Collecting got got.length sn r) : (rxComplete .ok r).payload = got := by
  rw [payload_rxComplete, if_pos rfl, hc.expected, hc.bytes]

variable {s : State}

/-- R239: one consecutive frame of the message. -/
theorem canInput_consecutiveFrameOf (hc : Collecting got (got.length + bs.length) sn s.rx) :
    canInput (consecutiveFrameOf s.can.respId pad sn bs) s =
      .next (s.setRx (if bs.length ≤ 7
        then rxComplete .ok (Machine.cfAccepted (consecutiveFrameOf s.can.respId pad sn bs) s.rx)
        else Machine.cfAccepted (consecutiveFrameOf s.can.respId pad sn bs) s.rx)) := by
  have hsn := (consecutiveFrameOf_sn s.can.respId pad sn bs).trans (congrArg BitVec.toNat hc.sequence.symm)
  have hroom : 1 + owedBytes s.rx ≤ 8 := Nat.add_le_add_left (Nat.min_le_left _ _) 1
  have hlast : (Machine.cfAccepted (consecutiveFrameOf s.can.respId pad sn bs) s.rx).rxIdx = s.rx.rxExp ↔
      bs.length ≤ 7 := by
    refine (hc.cfAccepted s.can.respId pad).rxIdx_eq_rxExp_iff.trans ?_
    rw [List.length_append, List.length_take, Config.cfDataBytes]
    omega
  rw [canInput_iCf rfl hc.busy hc.family hc.phase,
    inCfPhase_of_consecutive fullDlc_ne_zero (consecutiveFrameOf_pci _ _ _ _), consecutiveFrame_of_accepted hsn hroom]
  simp only [hlast]

theorem runInputs_consecutiveFrameOf (hc : Collecting got (got.length + bs.length) sn s.rx) (es : List Event) :
    runInputs s (.canRx (consecutiveFrameOf s.can.respId pad sn bs) :: es) =
      runInputs (s.setRx (if bs.length ≤ 7
        then rxComplete .ok (Machine.cfAccepted (consecutiveFrameOf s.can.respId pad sn bs) s.rx)
        else Machine.cfAccepted (consecutiveFrameOf s.can.respId pad sn bs) s.rx)) es :=
  runInputs_cons (canInput_consecutiveFrameOf (s := s.setInputs es) pad hc)

/-- R239, R245: the consecutive frames complete the message. -/
theorem runInputs_consecutiveFrames {fuel : Nat} (hc : Collecting got (got.length + bs.length) sn s.rx) (hne : bs ≠ [])
    (hfuel : bs.length ≤ fuel) :
    ∃ r, runInputs s (canEvents (consecutiveFrames s.can.respId pad fuel sn bs)) = .next ((s.setRx r).setInputs []) ∧
      r.rxSt = .ok ∧ r.payload = got ++ bs := by
  induction fuel generalizing s got sn bs with
  | zero => exact absurd (List.eq_nil_of_length_eq_zero (Nat.le_zero.mp hfuel)) hne
  | succ fuel ih =>
    have hpos := List.length_pos_iff.mpr hne
    have hnext := hc.cfAccepted s.can.respId pad
    have hframe := runInputs_consecutiveFrameOf pad hc
    rw [consecutiveFrames_of_ne _ _ _ _ hne]
    by_cases hlast : bs.length ≤ 7
    · have htake : bs.take Config.cfDataBytes = bs := List.take_of_length_le hlast
      have hdrop : bs.drop Config.cfDataBytes = [] := List.drop_of_length_le hlast
      rw [htake, ← List.length_append] at hnext
      simp only [if_pos hlast] at hframe
      refine ⟨_, ?_, rfl, hnext.payload_complete⟩
      rw [hdrop, consecutiveFrames_nil]
      exact hframe []
    · have hdrop : (bs.drop Config.cfDataBytes).length = bs.length - 7 := List.length_drop
      have hsplit : (got ++ bs.take Config.cfDataBytes).length + (bs.drop Config.cfDataBytes).length =
          got.length + bs.length := by
        rw [List.length_append, Nat.add_assoc, ← List.length_append, List.take_append_drop]
      simp only [if_neg hlast] at hframe
      rw [← hsplit] at hnext
      obtain ⟨r, hrun, hok, hpayload⟩ := ih
        (s := s.setRx (Machine.cfAccepted (consecutiveFrameOf s.can.respId pad sn bs) s.rx)) hnext
        (List.ne_nil_of_length_pos (by omega)) (by omega)
      refine ⟨r, (hframe _).trans hrun, hok, ?_⟩
      rw [hpayload, List.append_assoc, List.take_append_drop]

end Consecutive

/-! ## Whole messages (R245) -/

section Messages

variable {m : List Byte} (id : BitVec 11) (pad : Byte)

theorem messageFrames_of_short (h : m.length ≤ 7) :
    messageFrames id pad m = [singleFrameOf id m (List.replicate (7 - m.length) pad)] := if_pos h

theorem messageFrames_of_long (h : ¬ m.length ≤ 7) :
    messageFrames id pad m =
      firstFrameOf id m :: consecutiveFrames id pad m.length 1#4 (m.drop Config.ffDataBytes) := if_neg h

theorem messageFrames_length :
    (messageFrames id pad m).length = if m.length ≤ 7 then 1 else 1 + (m.length - 6 + 6) / 7 := by
  split
  · rw [messageFrames_of_short id pad ‹_›, List.length_singleton]
  · have hdrop : (m.drop Config.ffDataBytes).length = m.length - 6 := List.length_drop
    rw [messageFrames_of_long id pad ‹_›, List.length_cons, consecutiveFrames_length id pad _ (by omega), hdrop,
      Nat.add_comm]

variable {s : State} (hidle : Idle s)
include hidle

/-- R235, R236: the first frame is stored and answered with one flow-control frame. -/
theorem runInputs_firstFrame (hmin : 8 ≤ m.length) (hmax : m.length ≤ 4095) (es : List Event) :
    runInputs s (commandEvents [.rxArmI] ++ .canRx (firstFrameOf s.can.respId m) :: es) =
      runInputs (((s.arm .isotp .iFirst 0#12).setRx (firstFrameAccepted (firstFrameOf s.can.respId m)
        (rxArm .isotp .iFirst 0#12 s.rx))).emitCan (flowControl s.can.reqId)) es := by
  rw [runInputs_rxArmI hidle]
  refine runInputs_cons ((canInput_iFirst rfl rfl rfl rfl).trans (congrArg _ ?_))
  rw [inFirstPhase_of_first fullDlc_ne_zero (firstFrameOf_pci _)]
  exact firstFrame_of_accepted rfl ((firstFrameOf_total hmax _).symm ▸ hmin)

variable (hwf : Memory.wf Config.rxBufSize s.rx.rxBuf = true)
include hwf

/-- R234, R245: a message of one frame. -/
theorem runInputs_shortMessage (hpos : 1 ≤ m.length) (hcap : m.length ≤ 7) :
    ∃ t, runInputs s (commandEvents [.rxArmI] ++ canEvents (messageFrames s.can.respId pad m)) = .next t ∧
      t.rx.rxSt = .ok ∧ t.rxPayload = m ∧ t.canOut = s.canOut := by
  have hfits : (m ++ List.replicate (7 - m.length) pad).length ≤ 7 := by
    rw [List.length_append, List.length_replicate]
    omega
  rw [messageFrames_of_short _ _ hcap]
  exact ⟨_, runInputs_singleFrame hcap hidle hpos, rfl,
    payload_singleFrame (r := rxArm .isotp .iFirst 0#12 s.rx) hcap _ hwf hfits, rfl⟩

/-- R235 to R239, R245: a message of several frames. -/
theorem runInputs_longMessage (hmin : 8 ≤ m.length) (hmax : m.length ≤ 4095) :
    ∃ t, runInputs s (commandEvents [.rxArmI] ++ canEvents (messageFrames s.can.respId pad m)) = .next t ∧
      t.rx.rxSt = .ok ∧ t.rxPayload = m ∧ t.canOut = s.canOut ++ [flowControl s.can.reqId] := by
  have hc := collecting_firstFrame hmin hmax (r := rxArm .isotp .iFirst 0#12 s.rx) rfl rfl hwf s.can.respId
  have hdrop : (m.drop Config.ffDataBytes).length = m.length - 6 := List.length_drop
  have hsplit : (m.take Config.ffDataBytes).length + (m.drop Config.ffDataBytes).length = m.length := by
    rw [← List.length_append, List.take_append_drop]
  rw [← hsplit] at hc
  obtain ⟨r, hrun, hok, hpayload⟩ := runInputs_consecutiveFrames pad (fuel := m.length)
    (s := ((s.arm .isotp .iFirst 0#12).setRx (firstFrameAccepted (firstFrameOf s.can.respId m)
      (rxArm .isotp .iFirst 0#12 s.rx))).emitCan (flowControl s.can.reqId)) hc
    (List.ne_nil_of_length_pos (by omega)) (by omega)
  rw [List.take_append_drop] at hpayload
  rw [messageFrames_of_long _ _ (by omega)]
  exact ⟨_, (runInputs_firstFrame hidle hmin hmax _).trans hrun, hok, hpayload, rfl⟩

end Messages

/-- Settles O41: a message of at most 7 bytes is one single frame, a longer one a first frame and consecutive ones. -/
theorem isotpMessageIsReassembled : Obligations.IsotpMessageIsReassembled := by
  intro s pad m hidle hwf hpos hmax
  refine ⟨messageFrames_length _ _, ?_⟩
  by_cases hcap : m.length ≤ 7
  · rw [if_pos hcap, List.append_nil]
    exact runInputs_shortMessage pad hidle hwf hpos hcap
  · rw [if_neg hcap]
    exact runInputs_longMessage pad hidle hwf (by omega) hmax

end Sys2Proof.Machine
end

section
/-! PROOFS. The statements about CAN frames and the transmit buffer: data bytes at or beyond `dlc` are never read
(20_memory.md R62), and `TX_LOAD` leaves its bytes as the transmit payload (30_encoding.md R105). -/

namespace Sys2Proof.Machine

/-! ## Frames that agree below `dlc` (R62) -/

section Frames

variable {f g : CanFrame}

/-- A slice that ends below an index depends on the bytes below it. -/
theorem slice_congr {d k n : Nat} (h : f.bytes.take d = g.bytes.take d) (hd : k + n ≤ d) : f.slice k n = g.slice k n := by
  have hslice (f : CanFrame) : f.slice k n = ((f.bytes.take d).drop k).take n := by
    rw [CanFrame.slice, List.drop_take, List.take_take, Nat.min_eq_left (by omega)]
  rw [hslice, hslice, h]

variable (h : SameFrame f g)
include h

theorem SameFrame.slice_eq {k n : Nat} (hd : k + n ≤ f.dlc.val) : f.slice k n = g.slice k n := by
  obtain ⟨-, hdlc, hbytes⟩ := h
  exact slice_congr (hbytes.trans (by rw [hdlc])) hd

theorem SameFrame.d0_eq (hd : f.dlc.val ≠ 0) : f.d0 = g.d0 := by
  have h0 : [f.d0] = [g.d0] := h.slice_eq (k := 0) (n := 1) (by omega)
  exact List.head_eq_of_cons_eq h0

theorem SameFrame.d1_eq (hd : f.dlc.val = 8) : f.d1 = g.d1 := by
  have h1 : [f.d1] = [g.d1] := h.slice_eq (k := 1) (n := 1) (by omega)
  exact List.head_eq_of_cons_eq h1

theorem SameFrame.pci_eq (hd : f.dlc.val ≠ 0) : f.pci = g.pci := by rw [CanFrame.pci, CanFrame.pci, h.d0_eq hd]

theorem SameFrame.lo_eq (hd : f.dlc.val ≠ 0) : f.lo = g.lo := by rw [CanFrame.lo, CanFrame.lo, h.d0_eq hd]

variable (s : State)

/-! ## The rules of a phase on such frames (R234 to R243) -/

theorem SameFrame.singleFrame_eq (hd : f.dlc.val ≠ 0) : singleFrame f s = singleFrame g s := by
  have ⟨_, hdlc, _⟩ := h
  simp only [singleFrame, ← h.lo_eq hd, ← hdlc]
  refine ite_congr rfl (fun _ => rfl) fun haccepted => ?_
  rw [h.slice_eq (by omega)]

theorem SameFrame.firstFrame_eq : firstFrame f s = firstFrame g s := by
  have ⟨_, hdlc, _⟩ := h
  unfold firstFrame
  rw [← hdlc]
  refine ite_congr rfl (fun _ => rfl) fun hfull => ?_
  rw [ne_eq, not_not] at hfull
  have htotal : f.totalLength = g.totalLength := by
    rw [CanFrame.totalLength, CanFrame.totalLength, h.lo_eq (by omega), h.d1_eq hfull]
  rw [htotal, h.slice_eq (k := 2) (n := Config.ffDataBytes) (by simp only [hfull]; decide)]

theorem SameFrame.consecutiveFrame_eq (hd : f.dlc.val ≠ 0) : consecutiveFrame f s = consecutiveFrame g s := by
  have ⟨_, hdlc, _⟩ := h
  unfold consecutiveFrame
  rw [← h.lo_eq hd, ← hdlc]
  refine ite_congr rfl (fun _ => rfl) fun _ => ite_congr rfl (fun _ => rfl) fun hroom => ?_
  have haccepted : cfAccepted f s.rx = cfAccepted g s.rx := by
    rw [cfAccepted, cfAccepted, h.slice_eq (by omega)]
  rw [haccepted]

theorem SameFrame.inFirstPhase_eq : inFirstPhase f s = inFirstPhase g s := by
  have ⟨_, hdlc, _⟩ := h
  unfold inFirstPhase
  rw [← hdlc]
  refine ite_congr rfl (fun _ => rfl) fun hd => ?_
  rw [h.pci_eq hd, h.singleFrame_eq s hd, h.firstFrame_eq s]

theorem SameFrame.inCfPhase_eq : inCfPhase f s = inCfPhase g s := by
  have ⟨_, hdlc, _⟩ := h
  unfold inCfPhase
  rw [← hdlc]
  refine ite_congr rfl (fun _ => rfl) fun hd => ?_
  rw [h.pci_eq hd, h.consecutiveFrame_eq s hd]

theorem SameFrame.canInput_eq : canInput f s = canInput g s := by
  have ⟨hid, _, _⟩ := h
  unfold canInput canAccepted canByPhase
  rw [hid, h.inFirstPhase_eq s, h.inCfPhase_eq s]

end Frames

/-- Settles O57: the two frames go to the same rules, and no rule reads beyond `dlc`. -/
theorem canBytesBeyondDlcAreNeverRead : Obligations.CanBytesBeyondDlcAreNeverRead :=
  fun s _ _ h => h.canInput_eq s

/-! ## Loading the transmit buffer (R105) -/

section Load

variable {s : State}

theorem txPayload_txAppend (hwf : Memory.wf Config.txBufSize s.tx.txBuf = true) (hroom : s.tx.txLen ≠ 255#8) (b : Byte) :
    (s.setTx (txAppend b s.tx)).txPayload = s.txPayload ++ [b] := by
  obtain ⟨-, hpush⟩ := txPushAppendsOrRefuses
  obtain ⟨-, happend⟩ := hpush b s
  obtain ⟨t, ht, -, -, -, hpayload⟩ := happend hroom hwf
  cases (exec_txPush_of_room b hroom).symm.trans ht
  exact hpayload

/-- R152: pushes that have room leave their bytes behind the payload, and no flag. -/
theorem runInputs_pushes (hwf : Memory.wf Config.txBufSize s.tx.txBuf = true) {bs : List Byte}
    (hlen : s.tx.txLen.toNat + bs.length ≤ 255) :
    ∃ t, runInputs s (commandEvents (bs.map .txPush)) = .next t ∧ t.txPayload = s.txPayload ++ bs ∧ t.err = s.err := by
  induction bs generalizing s with
  | nil => exact ⟨s.setInputs [], rfl, (List.append_nil _).symm, rfl⟩
  | cons b bs ih =>
    rw [List.length_cons] at hlen
    have hroom : s.tx.txLen ≠ 255#8 := by
      intro hfull
      have := txLen_eq_255_iff.mp hfull
      simp only [Config.txBufSize] at this
      omega
    have hcount := txLen_txAppend b hroom
    obtain ⟨t, hrun, hpayload, herr⟩ := ih (s := s.setTx (txAppend b s.tx)) ((TxEffect.appended b hroom).wf hwf)
      (by rw [State.setTx_tx, hcount]; omega)
    refine ⟨t, ?_, ?_, herr⟩
    · refine Eq.trans ?_ hrun
      exact runInputs_command_cons (decode_commandWord 0x21#8 b) (exec_txPush_of_room b (s := s.setInputs _) hroom)
    · rw [hpayload, txPayload_txAppend hwf hroom, List.append_assoc, List.singleton_append]

/-- R105: `TX_LOAD` is `TX_CLR` and one push for each byte. -/
theorem assemble_txLoad {bs : List Byte} (h : bs ≠ []) :
    assemble [.txLoad bs] = some (commandEvents (.txClr :: bs.map .txPush)) := by
  simp [assemble, assembleFrom, lineCommands, lineInputs, loadCommands, commandEvents, h]

end Load

/-- Settles O58: `TX_CLR` empties the payload, and the pushes extend it by the bytes, for which there is room. -/
theorem txLoadLoadsThePayload : Obligations.TxLoadLoadsThePayload := by
  intro s bs hwf hne hlen
  obtain ⟨t, hrun, hpayload, herr⟩ := runInputs_pushes (s := s.setTx { s.tx with txLen := 0#8 }) hwf
    (bs := bs) (by simpa using hlen)
  have hempty : (s.setTx { s.tx with txLen := 0#8 }).txPayload = [] := firstBytes_zero _
  rw [hempty, List.nil_append] at hpayload
  refine ⟨_, t, assemble_txLoad hne, ?_, hpayload, herr⟩
  calc runInputs s (commandEvents (.txClr :: bs.map .txPush))
    _ = runInputs (s.setTx { s.tx with txLen := 0#8 }) (commandEvents (bs.map .txPush)) :=
      runInputs_command_cons (decode_commandWord 0x20#8 0#8) (exec_txClr _)
    _ = .next t := hrun

end Sys2Proof.Machine
end
